-- ==== Sys2Proof/Word.lean ====
section
/-! DEFINITION. The words of the part: bytes, 16-bit codes, 32-bit coordination counts, and the sparse
table that holds one record for each number of a range. -/

namespace Sys2Proof

/-- One byte of a frame, a flag set (R202), or a counter taken modulo 256 (Introduction 2.4). -/
abbrev Byte := BitVec 8

/-- A plan check code (R36). -/
abbrev CheckCode := BitVec 16

/-- A coordination count: a 32-bit count of ds ticks, taken modulo 2^32 (R7, Introduction 2.4). -/
abbrev Count := BitVec 32

/-- The floor data image: 21 bytes of one-time storage (R129, R205). -/
abbrev Image := BitVec 168

/-- One record for each number of a range, as a list of (number, record) pairs in rising order that
leaves out every number whose record is the table's default. -/
abbrev Table (α : Type) := List (Nat × α)

end Sys2Proof
end

