-- ==== Sys2Proof/Syntax.lean ====
section
/-! DEFINITION. The commands of the part: one constructor of `Instr` for each row of
spec/opcode_table.json, with the operands that its rule names. Operands of requests are the fields of the
request's body as they arrive (Table 12-4): numbers and codes that the owner has not judged yet. -/

namespace Sys2Proof

/-- The header fields of WRITE-PLAN-HEADER, in the order of Table 2-1; `mode` is the code of Table 12-2. -/
structure RawHeader where
  plan : Nat
  group : Nat
  cycle : Nat
  mode : Nat
  shorten : Nat
  lengthen : Nat
  window : Nat
  cohortKey : Nat
  count : Nat
deriving DecidableEq, Repr

/-- A site entry of WRITE-PLAN-SITES as it arrives (Table 12-5): `modeOverride` is the code, 255 when
absent, and `splits` the eight places. -/
structure RawEntry where
  site : Nat
  offset : Nat
  intervals : Nat
  modeOverride : Nat
  splits : List Nat
deriving DecidableEq, Repr

/-- A program entry as it arrives (12.5): start minute, plan number, notify-mark code. -/
structure RawProgramEntry where
  start : Nat
  plan : Nat
  notify : Nat
deriving DecidableEq, Repr

/-- An event entry of WRITE-EVENT as it arrives (Table 12-6). -/
structure RawEvent where
  id : Nat
  firstDay : Nat
  lastDay : Nat
  weekdays : Byte
  action : Nat
  plan : Nat
  start : Nat
  stop : Nat
  program : Nat
  priority : Nat
  notify : Nat
  groups : List Nat
deriving DecidableEq, Repr

/-- The settings of LINE-CONTROL as they arrive, in the order of Table 8-1. -/
structure RawSettings where
  enabled : Nat
  bitRate : Nat
  timeout : Nat
  mode : Nat
  polarity : Nat
  manual : Nat
deriving DecidableEq, Repr

/-- The levels of the input pins as supply is applied (Table 0-2). -/
structure PinLevels where
  rate1 : Bool
  rate0 : Bool
  commissionEn : Bool
  reset : Bool
deriving DecidableEq, Repr

/-- What the one-time programmer had got done when a reset cut it off (R135, R138): the data bits it had
programmed, and whether the commit mark, the failure mark or the lock mark had taken. It is read only where
the event that carries it starts a reset during a programming operation. -/
structure ProgramCut where
  bits : Image
  commit : Bool
  failure : Bool
  lock : Bool
deriving DecidableEq, Repr

/-- What stands outside and beneath the registers as a command comes: whether COMMISSION_EN is asserted (R141), and
which bits of the image under programming the programmer has got programmed so far (R133, R142). The bits are read
only while a floor entry is being programmed. -/
structure Seen where
  key : Bool
  programmed : Image
deriving DecidableEq, Repr

/-- COMMISSION_EN deasserted and no bit programmed. -/
def Seen.nothing : Seen := { key := false, programmed := 0 }

/-- One character of the planning link: its byte, and whether its stop bit read low (R179). -/
structure LinkCharacter where
  value : Byte
  framingError : Bool
deriving DecidableEq, Repr

/-- READ-FLOOR as it comes: the site number of its body, and what stands beside its frame. -/
structure FloorRead where
  site : Nat
  seen : Seen
deriving DecidableEq, Repr

/-- The end of a frame on the transmitter, which may free the reply slot for a queued request, and begins a reset
where the frame is the RESTART reply: the levels of the rate straps and what the programmer had got done are read
there only (R176, R186, R191). -/
structure FrameEnd where
  seen : Seen
  rate1 : Bool
  rate0 : Bool
  cut : ProgramCut
deriving DecidableEq, Repr

/-- How the commit mark reads once its programming has been tried (R133): programmed at one of its attempts,
unprogrammed at every one but programmed by the end of the operation, or unprogrammed. -/
inductive CommitReading where
  | takes
  | late
  | never
deriving DecidableEq, Repr

/-- The commands of the part, one for each row of the table and in its order. Every request carries its
tag, which its reply echoes (R177). -/
inductive Instr where
  /-- POWER_ON (R193): supply is applied with the input pins at these levels. -/
  | powerOn (pins : PinLevels) (cut : ProgramCut)
  /-- RESET_PIN_ASSERT (R193). -/
  | resetPinAssert (cut : ProgramCut)
  /-- RESET_RELEASE (R198): the RESET input is released with the rate straps at these levels. -/
  | resetRelease (rate1 rate0 : Bool)
  /-- STARTUP_END (R201). -/
  | startupEnd
  /-- PPS_EDGE (R2): a rising edge, this many oscillator counts after the latest tick, edge or absence. -/
  | ppsEdge (counts : Nat)
  /-- PPS_ABSENCE (R4): the capture counter reaches 30,000,000. -/
  | ppsAbsence
  /-- TICK (R5): the end of the current tick. -/
  | tick
  /-- SLEW_STEP (R12): the tick whose slew phase reaches 100. -/
  | slewStep
  /-- EPOCH_RENEWAL (R66) of one group. -/
  | epochRenewal (group : Nat)
  /-- WINDOW_EXPIRY (R140): the tick that brings the window count to 0 reaches the Floor Store. -/
  | windowExpiry
  /-- SWITCH_TAKEN (R70) by one group. -/
  | switchTaken (group : Nat)
  /-- RESOLVER_PASS (R58): the earliest pass asked for and not yet made. -/
  | resolverPass
  /-- PLAN_CHECK_START (R24). -/
  | planCheckStart
  /-- PLAN_CHECK_END (R26). -/
  | planCheckEnd
  /-- FLOOR_PROGRAMMING_END (R133): the bits of the image that read unprogrammed after every attempt, how the
  commit mark reads, and whether the failure mark takes, if they are programmed. -/
  | floorProgrammingEnd (deaf : Image) (commit : CommitReading) (failureTakes : Bool)
  /-- LOCK_PROGRAMMING_END (R138): whether the lock mark reads programmed at the end. -/
  | lockProgrammingEnd (takes : Bool)
  /-- COMMISSION_EN_DEASSERT (R141). -/
  | commissionEnDeassert
  /-- STORE_SECTION_WRITTEN (R197): whether content and check read back as written. -/
  | storeSectionWritten (readsBack : Bool)
  /-- STORE_END (R197). -/
  | storeEnd
  /-- EMPTY_ROUND_END (R153) on one line. -/
  | emptyRoundEnd (line : Nat)
  /-- POLL_SEND (R155) on one line. -/
  | pollSend (line : Nat)
  /-- POLL_SENT (R155) on one line. -/
  | pollSent (line : Nat)
  /-- REPORT_START_BIT (R156) on one line. -/
  | reportStartBit (line : Nat)
  /-- REPLY_TIMEOUT (R156) on one line. -/
  | replyTimeout (line : Nat)
  /-- REPORT_GAP_TIMEOUT (R156) on one line: the bytes received before the line fell quiet. -/
  | reportGapTimeout (line : Nat) (bytes : List Byte)
  /-- REPORT_RECEIVED (R157) on one line: the bytes received. -/
  | reportReceived (line : Nat) (bytes : List Byte)
  /-- STU_REPORT (R89): the STU takes the earliest report of the site handed to it. `judgeFirst` says
  which way round the judgement and the computation of a zero it hands over fall (R95, R120). -/
  | stuReport (site : Nat) (judgeFirst : Bool)
  /-- CM_REPORT (R114): the CM takes the earliest report of the site handed to it. -/
  | cmReport (site : Nat)
  /-- ZERO_JUDGEMENT (R115): the CM judges the earliest zero of the site handed to it. -/
  | zeroJudgement (site : Nat)
  /-- FU_REPORT (R168): the FU takes the earliest report of the site handed to it. -/
  | fuReport (site : Nat)
  /-- PLANNING_LINK_BYTE (R179): one character, which may complete the frame of a request. -/
  | planningLinkByte (character : LinkCharacter) (seen : Seen)
  /-- FRAME_GAP_TIMEOUT (R180). -/
  | frameGapTimeout
  /-- FRAME_TRANSMIT_END (R186). -/
  | frameTransmitEnd (ending : FrameEnd)
  /-- UNKNOWN_KIND (R182): a good frame of a kind that is no request kind. -/
  | unknownKind (tag kind : Byte) (body : List Byte)
  /-- IDENTIFY (R189). -/
  | identify (tag : Byte)
  /-- STATUS (R190). -/
  | status (tag : Byte)
  /-- RESTART (R191). -/
  | restart (tag : Byte)
  /-- SET-TIME (R11). -/
  | setTime (tag : Byte) (day timeOfDay : Nat)
  /-- GET-TIME (R14). -/
  | getTime (tag : Byte)
  /-- WRITE-SITE (R145). -/
  | writeSite (tag : Byte) (site line address group : Nat)
  /-- READ-SITE (R148). -/
  | readSite (tag : Byte) (site : Nat)
  /-- REMOVE-SITE (R147). -/
  | removeSite (tag : Byte) (site : Nat)
  /-- TAKE-SLOT (R20). -/
  | takeSlot (tag : Byte)
  /-- WRITE-PLAN-HEADER (R22). -/
  | writePlanHeader (tag : Byte) (slot : Nat) (header : RawHeader)
  /-- WRITE-PLAN-SITES (R23). -/
  | writePlanSites (tag : Byte) (slot first : Nat) (entries : List RawEntry)
  /-- POST-PLAN (R25): `supersede` is the mark's code. -/
  | postPlan (tag : Byte) (slot supersede : Nat)
  /-- WITHDRAW-PLAN (R33). -/
  | withdrawPlan (tag : Byte) (slot : Nat)
  /-- READ-PLAN (R37). -/
  | readPlan (tag : Byte) (slot first number : Nat)
  /-- LIST-PLANS (R38). -/
  | listPlans (tag : Byte) (selection : Byte) (first number : Nat)
  /-- WRITE-DAY-PROGRAM (R41). -/
  | writeDayProgram (tag : Byte) (program : Nat) (entries : List RawProgramEntry)
  /-- READ-DAY-PROGRAM (R42). -/
  | readDayProgram (tag : Byte) (program : Nat)
  /-- WRITE-WEEK (R43): seven program numbers, Monday first. -/
  | writeWeek (tag : Byte) (group : Nat) (programs : List Nat)
  /-- READ-WEEK (R43). -/
  | readWeek (tag : Byte) (group : Nat)
  /-- WRITE-EVENT (R46). -/
  | writeEvent (tag : Byte) (event : RawEvent)
  /-- READ-EVENT (R48): `next` is the next mark's code. -/
  | readEvent (tag : Byte) (id next : Nat)
  /-- DELETE-EVENT (R47). -/
  | deleteEvent (tag : Byte) (id : Nat)
  /-- FORCE-PLAN (R49): a duration in minutes, 65535 for OPEN (R204). -/
  | forcePlan (tag : Byte) (plan duration : Nat) (groups : List Nat)
  /-- RELEASE-FORCE (R51). -/
  | releaseForce (tag : Byte) (groups : List Nat)
  /-- STORE-TABLES (R196). -/
  | storeTables (tag : Byte)
  /-- GROUP-STATUS (R81). -/
  | groupStatus (tag : Byte) (group : Nat)
  /-- SITE-STATUS (R111). -/
  | siteStatus (tag : Byte) (site : Nat)
  /-- RELEASE-HOLD (R121). -/
  | releaseHold (tag : Byte) (site : Nat)
  /-- SET-MONITOR (R123): `read` is the read mark's code. -/
  | setMonitor (tag : Byte) (read tolerance limitCode : Nat)
  /-- WATCH (R125). -/
  | watch (tag : Byte) (site : Nat)
  /-- LINE-CONTROL (R150): `read` is the read mark's code. -/
  | lineControl (tag : Byte) (line read : Nat) (settings : RawSettings)
  /-- LINE-STATUS (R165): `clear` is the clear mark's code. -/
  | lineStatus (tag : Byte) (line clear : Nat)
  /-- CLEAR-FLAGS (R170). -/
  | clearFlags (tag : Byte) (site : Nat) (flags : Byte)
  /-- SET-FLAG-MASK (R172): `read` is the read mark's code. -/
  | setFlagMask (tag : Byte) (read : Nat) (mask : Byte)
  /-- SIGNAL-SITE (R174). -/
  | signalSite (tag : Byte) (site : Nat) (flags : Byte)
  /-- OPEN-COMMISSIONING (R139), with the level of COMMISSION_EN as the command comes (R141). -/
  | openCommissioning (tag : Byte) (keyAsserted : Bool)
  /-- COMMISSION-FLOOR (R132): the counted list holds the minimums given. -/
  | commissionFloor (tag : Byte) (site intervals minCycle maxCycle : Nat) (minimums : List Nat)
  /-- LOCK-FLOORS (R137). -/
  | lockFloors (tag : Byte)
  /-- READ-FLOOR (R142). -/
  | readFloor (tag : Byte) (read : FloorRead)
  /-- START_UP_TABLES_REBUILT (R199). -/
  | startUpTablesRebuilt
deriving DecidableEq, Repr

end Sys2Proof
end

