-- ==== Sys2Proof/Decode.lean ====
section
/-! DEFINITION. Request bodies (Table 12-4): from the kind, tag and body of a good frame to the request it
makes, and from a request to its kind and body. The opcode table gives no row any bits, so a table word spells
no command. -/

namespace Sys2Proof

/-- The command that a word of the opcode table spells: no row of the table gives bits. -/
def decodeTableWord (_nbits _w : Nat) : Option Instr := none

/-! ### Bytes, least significant first (R202) -/

/-- `k` bytes of a number, least significant byte first. -/
def leBytes : Nat → Nat → List Byte
  | 0, _ => []
  | k + 1, n => BitVec.ofNat 8 n :: leBytes k (n / 256)

/-- The number that bytes stand for, least significant byte first. -/
def leNumber : List Byte → Nat
  | [] => 0
  | b :: r => b.toNat + 256 * leNumber r

/-- The number in `k` bytes at place `i`. -/
def numberAt (k i : Nat) (l : List Byte) : Nat := leNumber ((l.drop i).take k)

/-- `k` numbers of `w` bytes each, from place `i`. -/
def numbersAt (w : Nat) : Nat → Nat → List Byte → List Nat
  | 0, _, _ => []
  | k + 1, i, l => numberAt w i l :: numbersAt w k (i + w) l

/-! ### Kind codes (Table 12-4) -/

namespace Kind
abbrev identify : Byte := 0x01
abbrev status : Byte := 0x02
abbrev restart : Byte := 0x03
abbrev setTime : Byte := 0x10
abbrev getTime : Byte := 0x11
abbrev writeSite : Byte := 0x18
abbrev readSite : Byte := 0x19
abbrev removeSite : Byte := 0x1A
abbrev takeSlot : Byte := 0x20
abbrev writePlanHeader : Byte := 0x21
abbrev writePlanSites : Byte := 0x22
abbrev postPlan : Byte := 0x23
abbrev withdrawPlan : Byte := 0x24
abbrev readPlan : Byte := 0x25
abbrev listPlans : Byte := 0x26
abbrev writeDayProgram : Byte := 0x30
abbrev readDayProgram : Byte := 0x31
abbrev writeWeek : Byte := 0x32
abbrev readWeek : Byte := 0x33
abbrev writeEvent : Byte := 0x34
abbrev readEvent : Byte := 0x35
abbrev deleteEvent : Byte := 0x36
abbrev forcePlan : Byte := 0x37
abbrev releaseForce : Byte := 0x38
abbrev storeTables : Byte := 0x39
abbrev groupStatus : Byte := 0x40
abbrev siteStatus : Byte := 0x41
abbrev releaseHold : Byte := 0x42
abbrev setMonitor : Byte := 0x43
abbrev watch : Byte := 0x44
abbrev lineControl : Byte := 0x48
abbrev lineStatus : Byte := 0x49
abbrev clearFlags : Byte := 0x50
abbrev setFlagMask : Byte := 0x51
abbrev signalSite : Byte := 0x52
abbrev openCommissioning : Byte := 0x58
abbrev commissionFloor : Byte := 0x59
abbrev lockFloors : Byte := 0x5A
abbrev readFloor : Byte := 0x5B
abbrev reply : Byte := 0x80
end Kind

/-! ### Records within bodies -/

/-- A plan header of 10 bytes at place `i` (Table 12-5). -/
def headerAt (i : Nat) (l : List Byte) : RawHeader :=
  { plan := numberAt 1 i l, group := numberAt 1 (i + 1) l, cycle := numberAt 2 (i + 2) l,
    mode := numberAt 1 (i + 4) l, shorten := numberAt 1 (i + 5) l, lengthen := numberAt 1 (i + 6) l,
    window := numberAt 1 (i + 7) l, cohortKey := numberAt 1 (i + 8) l, count := numberAt 1 (i + 9) l }

/-- The 10 bytes of a plan header (Table 12-5). -/
def RawHeader.bytes (h : RawHeader) : List Byte :=
  leBytes 1 h.plan ++ leBytes 1 h.group ++ leBytes 2 h.cycle ++ leBytes 1 h.mode ++ leBytes 1 h.shorten
    ++ leBytes 1 h.lengthen ++ leBytes 1 h.window ++ leBytes 1 h.cohortKey ++ leBytes 1 h.count

/-- A site entry of 22 bytes at place `i` (Table 12-5). -/
def entryAt (i : Nat) (l : List Byte) : RawEntry :=
  { site := numberAt 2 i l, offset := numberAt 2 (i + 2) l, intervals := numberAt 1 (i + 4) l,
    modeOverride := numberAt 1 (i + 5) l, splits := numbersAt 2 8 (i + 6) l }

/-- The 22 bytes of a site entry (Table 12-5). -/
def RawEntry.bytes (e : RawEntry) : List Byte :=
  leBytes 2 e.site ++ leBytes 2 e.offset ++ leBytes 1 e.intervals ++ leBytes 1 e.modeOverride
    ++ e.splits.flatMap (leBytes 2)

/-- `k` site entries from place `i`. -/
def entriesAt : Nat → Nat → List Byte → List RawEntry
  | 0, _, _ => []
  | k + 1, i, l => entryAt i l :: entriesAt k (i + 22) l

/-- A program entry of 4 bytes at place `i` (12.5). -/
def programEntryAt (i : Nat) (l : List Byte) : RawProgramEntry :=
  { start := numberAt 2 i l, plan := numberAt 1 (i + 2) l, notify := numberAt 1 (i + 3) l }

/-- The 4 bytes of a program entry (12.5). -/
def RawProgramEntry.bytes (e : RawProgramEntry) : List Byte :=
  leBytes 2 e.start ++ leBytes 1 e.plan ++ leBytes 1 e.notify

/-- `k` program entries from place `i`. -/
def programEntriesAt : Nat → Nat → List Byte → List RawProgramEntry
  | 0, _, _ => []
  | k + 1, i, l => programEntryAt i l :: programEntriesAt k (i + 4) l

/-- An event entry, its group count taken from its 16th byte (Table 12-6). -/
def eventOf (l : List Byte) : RawEvent :=
  { id := numberAt 1 0 l, firstDay := numberAt 2 1 l, lastDay := numberAt 2 3 l, weekdays := l.getD 5 0,
    action := numberAt 1 6 l, plan := numberAt 1 7 l, start := numberAt 2 8 l, stop := numberAt 2 10 l,
    program := numberAt 1 12 l, priority := numberAt 1 13 l, notify := numberAt 1 14 l,
    groups := numbersAt 1 (numberAt 1 15 l) 16 l }

/-- The 16 + k bytes of an event entry (Table 12-6). -/
def RawEvent.bytes (e : RawEvent) : List Byte :=
  leBytes 1 e.id ++ leBytes 2 e.firstDay ++ leBytes 2 e.lastDay ++ [e.weekdays] ++ leBytes 1 e.action
    ++ leBytes 1 e.plan ++ leBytes 2 e.start ++ leBytes 2 e.stop ++ leBytes 1 e.program
    ++ leBytes 1 e.priority ++ leBytes 1 e.notify ++ leBytes 1 e.groups.length
    ++ e.groups.flatMap (leBytes 1)

/-- The line settings of 6 bytes at place `i` (Table 12-4). -/
def settingsAt (i : Nat) (l : List Byte) : RawSettings :=
  { enabled := numberAt 1 i l, bitRate := numberAt 1 (i + 1) l, timeout := numberAt 1 (i + 2) l,
    mode := numberAt 1 (i + 3) l, polarity := numberAt 1 (i + 4) l, manual := numberAt 1 (i + 5) l }

/-- The 6 bytes of line settings (Table 12-4). -/
def RawSettings.bytes (r : RawSettings) : List Byte :=
  leBytes 1 r.enabled ++ leBytes 1 r.bitRate ++ leBytes 1 r.timeout ++ leBytes 1 r.mode
    ++ leBytes 1 r.polarity ++ leBytes 1 r.manual

/-! ### Decoding a request -/

/-- What a request record is judged to be (R182). -/
inductive Decoded where
  | request (i : Instr)
  | unknownKind
  | badLength
deriving DecidableEq, Repr

/-- A request, if the body has the length that Table 12-4 allows. -/
def ofLength (body : List Byte) (allowed : Nat) (i : Instr) : Decoded :=
  if body.length = allowed then .request i else .badLength

/-- A request whose body carries a count at place `at_`: the allowed length is the fixed part plus the count times
the item size, and a body shorter than the fixed part is of no allowed length (R182). -/
def ofCounted (body : List Byte) (fixed at_ item : Nat) (i : Instr) : Decoded :=
  if fixed ≤ body.length ∧ body.length = fixed + numberAt 1 at_ body * item then .request i else .badLength

/-- The request that a frame makes (R182, Table 12-4). `seen` stands beside the frame, for OPEN-COMMISSIONING and
READ-FLOOR (R141, R142). -/
def decodeRequest (seen : Seen) (kind tag : Byte) (b : List Byte) : Decoded :=
  if kind = Kind.identify then ofLength b 0 (.identify tag)
  else if kind = Kind.status then ofLength b 0 (.status tag)
  else if kind = Kind.restart then ofLength b 0 (.restart tag)
  else if kind = Kind.setTime then ofLength b 6 (.setTime tag (numberAt 2 0 b) (numberAt 4 2 b))
  else if kind = Kind.getTime then ofLength b 0 (.getTime tag)
  else if kind = Kind.writeSite then
    ofLength b 5 (.writeSite tag (numberAt 2 0 b) (numberAt 1 2 b) (numberAt 1 3 b) (numberAt 1 4 b))
  else if kind = Kind.readSite then ofLength b 2 (.readSite tag (numberAt 2 0 b))
  else if kind = Kind.removeSite then ofLength b 2 (.removeSite tag (numberAt 2 0 b))
  else if kind = Kind.takeSlot then ofLength b 0 (.takeSlot tag)
  else if kind = Kind.writePlanHeader then
    ofLength b 11 (.writePlanHeader tag (numberAt 1 0 b) (headerAt 1 b))
  else if kind = Kind.writePlanSites then
    ofCounted b 3 2 22
      (.writePlanSites tag (numberAt 1 0 b) (numberAt 1 1 b) (entriesAt (numberAt 1 2 b) 3 b))
  else if kind = Kind.postPlan then ofLength b 2 (.postPlan tag (numberAt 1 0 b) (numberAt 1 1 b))
  else if kind = Kind.withdrawPlan then ofLength b 1 (.withdrawPlan tag (numberAt 1 0 b))
  else if kind = Kind.readPlan then
    ofLength b 3 (.readPlan tag (numberAt 1 0 b) (numberAt 1 1 b) (numberAt 1 2 b))
  else if kind = Kind.listPlans then
    ofLength b 3 (.listPlans tag (b.getD 0 0) (numberAt 1 1 b) (numberAt 1 2 b))
  else if kind = Kind.writeDayProgram then
    ofCounted b 2 1 4 (.writeDayProgram tag (numberAt 1 0 b) (programEntriesAt (numberAt 1 1 b) 2 b))
  else if kind = Kind.readDayProgram then ofLength b 1 (.readDayProgram tag (numberAt 1 0 b))
  else if kind = Kind.writeWeek then ofLength b 8 (.writeWeek tag (numberAt 1 0 b) (numbersAt 1 7 1 b))
  else if kind = Kind.readWeek then ofLength b 1 (.readWeek tag (numberAt 1 0 b))
  else if kind = Kind.writeEvent then ofCounted b 16 15 1 (.writeEvent tag (eventOf b))
  else if kind = Kind.readEvent then ofLength b 2 (.readEvent tag (numberAt 1 0 b) (numberAt 1 1 b))
  else if kind = Kind.deleteEvent then ofLength b 1 (.deleteEvent tag (numberAt 1 0 b))
  else if kind = Kind.forcePlan then
    ofCounted b 4 3 1
      (.forcePlan tag (numberAt 1 0 b) (numberAt 2 1 b) (numbersAt 1 (numberAt 1 3 b) 4 b))
  else if kind = Kind.releaseForce then
    ofCounted b 1 0 1 (.releaseForce tag (numbersAt 1 (numberAt 1 0 b) 1 b))
  else if kind = Kind.storeTables then ofLength b 0 (.storeTables tag)
  else if kind = Kind.groupStatus then ofLength b 1 (.groupStatus tag (numberAt 1 0 b))
  else if kind = Kind.siteStatus then ofLength b 2 (.siteStatus tag (numberAt 2 0 b))
  else if kind = Kind.releaseHold then ofLength b 2 (.releaseHold tag (numberAt 2 0 b))
  else if kind = Kind.setMonitor then
    ofLength b 3 (.setMonitor tag (numberAt 1 0 b) (numberAt 1 1 b) (numberAt 1 2 b))
  else if kind = Kind.watch then ofLength b 2 (.watch tag (numberAt 2 0 b))
  else if kind = Kind.lineControl then
    ofLength b 8 (.lineControl tag (numberAt 1 0 b) (numberAt 1 1 b) (settingsAt 2 b))
  else if kind = Kind.lineStatus then ofLength b 2 (.lineStatus tag (numberAt 1 0 b) (numberAt 1 1 b))
  else if kind = Kind.clearFlags then ofLength b 3 (.clearFlags tag (numberAt 2 0 b) (b.getD 2 0))
  else if kind = Kind.setFlagMask then ofLength b 2 (.setFlagMask tag (numberAt 1 0 b) (b.getD 1 0))
  else if kind = Kind.signalSite then ofLength b 3 (.signalSite tag (numberAt 2 0 b) (b.getD 2 0))
  else if kind = Kind.openCommissioning then ofLength b 0 (.openCommissioning tag seen.key)
  else if kind = Kind.commissionFloor then
    ofCounted b 8 7 2
      (.commissionFloor tag (numberAt 2 0 b) (numberAt 1 2 b) (numberAt 2 3 b) (numberAt 2 5 b)
        (numbersAt 2 (numberAt 1 7 b) 8 b))
  else if kind = Kind.lockFloors then ofLength b 0 (.lockFloors tag)
  else if kind = Kind.readFloor then ofLength b 2 (.readFloor tag { site := numberAt 2 0 b, seen := seen })
  else .unknownKind

/-! ### Encoding a request -/

/-- Kind, tag and body of the frame that makes a request (Table 12-4); none for a command that is no frame. -/
def encodeRequest : Instr → Option (Byte × Byte × List Byte)
  | .unknownKind tag kind body => some (kind, tag, body)
  | .identify tag => some (Kind.identify, tag, [])
  | .status tag => some (Kind.status, tag, [])
  | .restart tag => some (Kind.restart, tag, [])
  | .setTime tag d t => some (Kind.setTime, tag, leBytes 2 d ++ leBytes 4 t)
  | .getTime tag => some (Kind.getTime, tag, [])
  | .writeSite tag n l a g =>
    some (Kind.writeSite, tag, leBytes 2 n ++ leBytes 1 l ++ leBytes 1 a ++ leBytes 1 g)
  | .readSite tag n => some (Kind.readSite, tag, leBytes 2 n)
  | .removeSite tag n => some (Kind.removeSite, tag, leBytes 2 n)
  | .takeSlot tag => some (Kind.takeSlot, tag, [])
  | .writePlanHeader tag n h => some (Kind.writePlanHeader, tag, leBytes 1 n ++ h.bytes)
  | .writePlanSites tag n f es =>
    some (Kind.writePlanSites, tag,
      leBytes 1 n ++ leBytes 1 f ++ leBytes 1 es.length ++ es.flatMap RawEntry.bytes)
  | .postPlan tag n m => some (Kind.postPlan, tag, leBytes 1 n ++ leBytes 1 m)
  | .withdrawPlan tag n => some (Kind.withdrawPlan, tag, leBytes 1 n)
  | .readPlan tag n f k => some (Kind.readPlan, tag, leBytes 1 n ++ leBytes 1 f ++ leBytes 1 k)
  | .listPlans tag sel f k => some (Kind.listPlans, tag, sel :: (leBytes 1 f ++ leBytes 1 k))
  | .writeDayProgram tag p es =>
    some (Kind.writeDayProgram, tag,
      leBytes 1 p ++ leBytes 1 es.length ++ es.flatMap RawProgramEntry.bytes)
  | .readDayProgram tag p => some (Kind.readDayProgram, tag, leBytes 1 p)
  | .writeWeek tag g ps => some (Kind.writeWeek, tag, leBytes 1 g ++ ps.flatMap (leBytes 1))
  | .readWeek tag g => some (Kind.readWeek, tag, leBytes 1 g)
  | .writeEvent tag e => some (Kind.writeEvent, tag, e.bytes)
  | .readEvent tag id m => some (Kind.readEvent, tag, leBytes 1 id ++ leBytes 1 m)
  | .deleteEvent tag id => some (Kind.deleteEvent, tag, leBytes 1 id)
  | .forcePlan tag p d gs =>
    some (Kind.forcePlan, tag,
      leBytes 1 p ++ leBytes 2 d ++ leBytes 1 gs.length ++ gs.flatMap (leBytes 1))
  | .releaseForce tag gs => some (Kind.releaseForce, tag, leBytes 1 gs.length ++ gs.flatMap (leBytes 1))
  | .storeTables tag => some (Kind.storeTables, tag, [])
  | .groupStatus tag g => some (Kind.groupStatus, tag, leBytes 1 g)
  | .siteStatus tag n => some (Kind.siteStatus, tag, leBytes 2 n)
  | .releaseHold tag n => some (Kind.releaseHold, tag, leBytes 2 n)
  | .setMonitor tag r t c => some (Kind.setMonitor, tag, leBytes 1 r ++ leBytes 1 t ++ leBytes 1 c)
  | .watch tag n => some (Kind.watch, tag, leBytes 2 n)
  | .lineControl tag l r v => some (Kind.lineControl, tag, leBytes 1 l ++ leBytes 1 r ++ v.bytes)
  | .lineStatus tag l c => some (Kind.lineStatus, tag, leBytes 1 l ++ leBytes 1 c)
  | .clearFlags tag n f => some (Kind.clearFlags, tag, leBytes 2 n ++ [f])
  | .setFlagMask tag r m => some (Kind.setFlagMask, tag, leBytes 1 r ++ [m])
  | .signalSite tag n f => some (Kind.signalSite, tag, leBytes 2 n ++ [f])
  | .openCommissioning tag _ => some (Kind.openCommissioning, tag, [])
  | .commissionFloor tag n k a b fs =>
    some (Kind.commissionFloor, tag,
      leBytes 2 n ++ leBytes 1 k ++ leBytes 2 a ++ leBytes 2 b ++ leBytes 1 fs.length
        ++ fs.flatMap (leBytes 2))
  | .lockFloors tag => some (Kind.lockFloors, tag, [])
  | .readFloor tag r => some (Kind.readFloor, tag, leBytes 2 r.site)
  | .powerOn _ _ => none
  | .resetPinAssert _ => none
  | .resetRelease _ _ => none
  | .startupEnd => none
  | .ppsEdge _ => none
  | .ppsAbsence => none
  | .tick => none
  | .slewStep => none
  | .epochRenewal _ => none
  | .windowExpiry => none
  | .switchTaken _ => none
  | .resolverPass => none
  | .planCheckStart => none
  | .planCheckEnd => none
  | .floorProgrammingEnd _ _ _ => none
  | .lockProgrammingEnd _ => none
  | .commissionEnDeassert => none
  | .storeSectionWritten _ => none
  | .storeEnd => none
  | .emptyRoundEnd _ => none
  | .pollSend _ => none
  | .pollSent _ => none
  | .reportStartBit _ => none
  | .replyTimeout _ => none
  | .reportGapTimeout _ _ => none
  | .reportReceived _ _ => none
  | .stuReport _ _ => none
  | .cmReport _ => none
  | .zeroJudgement _ => none
  | .fuReport _ => none
  | .planningLinkByte _ _ => none
  | .frameGapTimeout => none
  | .frameTransmitEnd _ => none
  | .startUpTablesRebuilt => none

/-- What a request carries beside its frame (R141, R142). -/
def besideFrame : Instr → Seen
  | .openCommissioning _ key => { key := key, programmed := 0 }
  | .readFloor _ r => r.seen
  | _ => Seen.nothing

end Sys2Proof
end

