-- ==== Sys2Proof/Config.lean ====
section
/-! DEFINITION. What one NT-7320 fixes for good (Introduction 1.2, R189), and the one value the manual
leaves open: a constant with no body, of which nothing can be proved. -/

namespace Sys2Proof.Config

/-- Site numbers run from 1 to this one (Table 0-3). -/
abbrev sites : Nat := 384
/-- Groups run from 1 to this one (Table 0-3). -/
abbrev groups : Nat := 64
/-- Plan slots, numbered from 0 (Table 0-3). -/
abbrev slots : Nat := 96
/-- The highest plan number (Table 0-3). -/
abbrev plans : Nat := 250
/-- Site entries per plan (R16). -/
abbrev entriesPerPlan : Nat := 48
/-- Day programs (R40). -/
abbrev programs : Nat := 64
/-- Entries per day program (R40). -/
abbrev entriesPerProgram : Nat := 24
/-- Event calendar ids run from 1 to this one (R44). -/
abbrev events : Nat := 128
/-- Field lines, numbered from 0 (Table 0-3). -/
abbrev lines : Nat := 8
/-- Roster entries per line (R144). -/
abbrev sitesPerLine : Nat := 48
/-- Members per group (R144). -/
abbrev membersPerGroup : Nat := 48
/-- Request records in the request queue (R181). -/
abbrev requestQueue : Nat := 4
/-- Records in the refusal list (R181). -/
abbrev refusalList : Nat := 4
/-- Notices in the notice queue (R187). -/
abbrev noticeQueue : Nat := 64
/-- The largest frame body, in bytes (R177). -/
abbrev frameBody : Nat := 1024
/-- The capture counter holds at this value (R2). -/
abbrev captureTop : Nat := 4294967295
/-- The capture counter's value at PPS absence (R4). -/
abbrev absenceCounts : Nat := 30000000
/-- The nominal oscillator rate (R1). -/
abbrev nominalRate : Nat := 10000000
/-- Ticks of one civil day (R8). -/
abbrev dayTicks : Nat := 864000
/-- Ticks for which one opening of the commissioning window lasts (R139). -/
abbrev windowTicks : Nat := 3000
/-- An epoch at least this old is renewed (R66). -/
abbrev renewalAge : Nat := 16777216
/-- The highest write sequence number, at which WRITE-EVENT is refused (R45). -/
abbrev sequenceTop : Nat := 4294967295

/-- FREE VALUE. The byte by which a refusal names a field, on the wire. The owning rules say which field a
refusal names; no rule says by which byte. The argument is the field's place in the owning rule's list,
counted from 0 (DESIGN CHOICE, assumption log 2). -/
opaque fieldName : Nat → BitVec 8

end Sys2Proof.Config
end

