-- ==== Sys2Proof/Machine/State.lean ====
section
/-! DEFINITION. The state of the part, block by block (Table 0-1), as plain data: what the manual names,
the hand-overs between blocks that have not been taken yet, and the queue of commands that wait. A record
kept for each number of a range is a `Table`, whose unlisted numbers hold the record's reset value (DESIGN CHOICE,
assumption log 22). -/

namespace Sys2Proof.Machine

/-! ### Time Base (R1) -/

/-- Discipline state (R4). -/
inductive Discipline where
  /-- NONE -/
  | never
  | locked
  | holdover
deriving DecidableEq, Repr

/-- Verdict on the last capture (R3). -/
inductive Verdict where
  /-- NONE -/
  | never
  | accepted
  | rejected
deriving DecidableEq, Repr

/-- The Time Base (R1). `tickSpent` is the place within the current tick, in oscillator counts, which R5's
counting out of ticks implies (DEDUCED, assumption log 7). -/
structure TimeBase where
  captureCounter : Nat
  edgeSeen : Bool
  lastCapture : Nat
  verdict : Verdict
  acceptedN : Nat
  reloadR : Nat
  reloadRem : Nat
  tickPhase : Nat
  tickSpent : Nat
  discipline : Discipline
  count : Count
  day : Nat
  timeOfDay : Nat
  valid : Bool
  slewRemainder : Int
  slewPhase : Nat
deriving DecidableEq, Repr

/-- The Time Base after power-on (R1). -/
def TimeBase.powerOn : TimeBase :=
  { captureCounter := 0, edgeSeen := false, lastCapture := 0, verdict := .never, acceptedN := 10000000,
    reloadR := 1000000, reloadRem := 0, tickPhase := 0, tickSpent := 0, discipline := .never, count := 0,
    day := 0, timeOfDay := 0, valid := false, slewRemainder := 0, slewPhase := 0 }

/-! ### Plan Library (R16 to R18) -/

/-- Correction mode (R16). -/
inductive CorrMode where
  | best
  | lengthen
  | shorten
deriving DecidableEq, Repr

/-- A plan header as stored (Table 2-1). -/
structure PlanHeader where
  plan : Nat
  group : Nat
  cycle : Nat
  mode : CorrMode
  shorten : Nat
  lengthen : Nat
  window : Nat
  cohortKey : Nat
  count : Nat
deriving DecidableEq, Repr

/-- A site entry as stored (Table 2-2); the interval count is the length of `splits`. -/
structure SiteEntry where
  site : Nat
  offset : Nat
  splits : List Nat
  modeOverride : Option CorrMode
deriving DecidableEq, Repr

/-- Slot state (Table 2-3). -/
inductive SlotState where
  | free
  | filling
  | checking
  | posted
  | retiring
deriving DecidableEq, Repr

/-- A plan slot (R18). `supersede` is the mark that POST-PLAN recorded (R25), clear in every state but
CHECKING. -/
structure Slot where
  state : SlotState
  header : Option PlanHeader
  entries : Table (Option SiteEntry)
  checkCode : Option CheckCode
  refs : Nat
  supersede : Bool
deriving DecidableEq, Repr

/-- An emptied slot (R18). -/
def Slot.empty : Slot :=
  { state := .free, header := none, entries := [], checkCode := none, refs := 0, supersede := false }

/-- The Plan Library (R18, R19, R24). `checking` is set while the plan checker works on the head of the
check queue. -/
structure PlanLibrary where
  slots : Table Slot
  freeList : List Nat
  checkQueue : List Nat
  checking : Bool
deriving DecidableEq, Repr

/-! ### Schedule Resolver (R40 to R57) -/

/-- A program entry (R40). -/
structure ProgramEntry where
  start : Nat
  plan : Nat
  notify : Bool
deriving DecidableEq, Repr

/-- What an event entry does (Table 3-1): a plan within a window of minutes, or a program for the day. -/
inductive EventAction where
  | plan (number start stop : Nat)
  | program (number : Nat)
deriving DecidableEq, Repr

/-- An event entry (Table 3-1). -/
structure EventEntry where
  firstDay : Nat
  lastDay : Nat
  weekdays : Byte
  groups : List Nat
  action : EventAction
  priority : Nat
  notify : Bool
  sequence : Nat
deriving DecidableEq, Repr

/-- A force (R49): its end is a civil day and minute, or none when it is open. -/
structure Force where
  plan : Nat
  ends : Option (Nat × Nat)
deriving DecidableEq, Repr

/-- Source kind (R52). -/
inductive SourceKind where
  /-- NONE -/
  | nothing
  | force
  | event
  | programEntry
deriving DecidableEq, Repr

/-- The identity of a governing source (R52): kind, event id (0 when none), program entry. -/
structure SourceId where
  kind : SourceKind
  eventId : Nat
  programEntry : Option (Nat × Nat)
deriving DecidableEq, Repr

/-- A governing record (R52). `missing` is the missing record. -/
structure Governing where
  source : SourceId
  carry : Bool
  plan : Nat
  missing : Option (SourceId × Nat)
deriving DecidableEq, Repr

/-- The governing record after any reset (R52). -/
def Governing.reset : Governing :=
  { source := { kind := .nothing, eventId := 0, programEntry := none }, carry := false, plan := 0,
    missing := none }

/-- A resolver pass that has been asked for and not yet made (R57, R58): with the day, minute and count
that the Time Base's signal carried, or at the clocks as they stand when the pass starts. -/
inductive PassAsk where
  | signal (day minute : Nat) (t0 : Count)
  | asked
deriving DecidableEq, Repr

/-- The Schedule Resolver. `owed` lists the passes asked for and not yet made, oldest first. -/
structure Resolver where
  programs : Table (List ProgramEntry)
  weeks : Table (List Nat)
  events : Table (Option EventEntry)
  sequence : Nat
  forces : Table (Option Force)
  governing : Table Governing
  owed : List PassAsk
deriving DecidableEq, Repr

/-! ### Group Clock Unit (R63, R82) -/

/-- Target of a switch request (R59): a slot, or FREE. -/
inductive Target where
  | slot (n : Nat)
  | free
deriving DecidableEq, Repr

/-- The running reference of a group: current slot, current plan number, E and C (Table 4-1), which are
present and absent together (Table 4-2). -/
structure Reference where
  slot : Nat
  plan : Nat
  epoch : Count
  cycle : Nat
deriving DecidableEq, Repr

/-- A pending switch: pending target, Ts and opening count (Table 4-1), present and absent together
(Table 4-2). -/
structure PendingSwitch where
  target : Target
  instant : Count
  opening : Count
deriving DecidableEq, Repr

/-- Group state (Table 4-2). -/
inductive GroupState where
  | empty
  | free
  | running
  | pending
deriving DecidableEq, Repr

/-- A group record (Table 4-1). Its state and its underlying state are defined by the fields it holds (R64):
see `GroupRecord.state` and `GroupRecord.underlying` (DEDUCED, assumption log 23). `observed` lists, in rising order, the members whose observed
mark is set. -/
structure GroupRecord where
  reference : Option Reference
  pending : Option PendingSwitch
  cohort : List Nat
  lastSwitch : Option Count
  members : Nat
  inStep : Nat
  settlePending : Bool
  observed : List Nat
deriving DecidableEq, Repr

/-- A group with no members (R64). -/
def GroupRecord.empty : GroupRecord :=
  { reference := none, pending := none, cohort := [], lastSwitch := none, members := 0, inStep := 0,
    settlePending := false, observed := [] }

/-- A resume record (R82). -/
structure ResumeRecord where
  plan : Nat
  checkCode : Option CheckCode
  cycle : Nat
  epoch : Count
deriving DecidableEq, Repr

/-- The resume record after power-on, and of a group that runs no plan (R82). -/
def ResumeRecord.free : ResumeRecord := { plan := 0, checkCode := none, cycle := 0, epoch := 0 }

/-! ### Site Tracking Unit (R84, R85) -/

/-- Tracker state (Table 5-3). -/
inductive TrackerState where
  | offline
  | free
  | acquiring
  | seeking
  | inStep
deriving DecidableEq, Repr

/-- The identity of a target that is a slot (R86): the slot and its switch instant. -/
structure TargetId where
  slot : Nat
  instant : Count
deriving DecidableEq, Repr

/-- The floor values of a site (Table 7-1); the interval count is `intervals`. -/
structure FloorValues where
  intervals : Nat
  minimums : List Nat
  minCycle : Nat
  maxCycle : Nat
deriving DecidableEq, Repr

/-- What a plan asks of a site (5.2): identity, epoch, cycle length, site entry, the plan header's correction
mode, sp, lp and W, and the site's effective floor. -/
structure SiteTarget where
  id : TargetId
  plan : Nat
  epoch : Count
  cycle : Nat
  offset : Nat
  splits : List Nat
  modeOverride : Option CorrMode
  mode : CorrMode
  shorten : Nat
  lengthen : Nat
  window : Nat
  floor : Option FloorValues
deriving DecidableEq, Repr

/-- A site's target (R86): FREE, or what a plan asks. -/
inductive AnyTarget where
  | free
  | coordinated (t : SiteTarget)
deriving DecidableEq, Repr

/-- Order kind (Table 5-2). -/
inductive OrderKind where
  | free
  | nominal
  | shortened
  | lengthened
deriving DecidableEq, Repr

/-- What made the STU compute an order (Table 5-2). -/
inductive OrderCause where
  | zero
  | first
  | recompute
  | freeing
deriving DecidableEq, Repr

/-- The basis of an order (R94): Z_k, L_k and Zp. -/
structure Basis where
  zk : Count
  lk : Nat
  zp : Count
deriving DecidableEq, Repr

/-- An order (Table 5-2). `length` is absent for FREE, and `splits` is then empty. -/
structure Order where
  sequence : Byte
  kind : OrderKind
  length : Option Nat
  splits : List Nat
  correction : Nat
  target : Option TargetId
  basis : Option Basis
  cause : OrderCause
deriving DecidableEq, Repr

/-- Why an order is NOMINAL (R101). -/
inductive NominalReason where
  /-- no reason: the order is not NOMINAL -/
  | nothing
  | nominalLag
  | held
  | disturbed
  | blocked
deriving DecidableEq, Repr

/-- Lag and needs at the predicted zero (R96). -/
structure Needs where
  lag : Nat
  shortenNeed : Nat
  lengthenNeed : Nat
deriving DecidableEq, Repr

/-- Limits of one cycle and the cycle counts (R97, R98); an unbounded count is `none`. -/
structure Limits where
  smax : Nat
  lmax : Nat
  shortenCycles : Option Nat
  lengthenCycles : Option Nat
deriving DecidableEq, Repr

/-- The last computation (R101 step 5). -/
structure Computation where
  lagObserved : Option Nat
  needs : Option Needs
  limits : Option Limits
  kind : OrderKind
  correction : Nat
  reason : NominalReason
deriving DecidableEq, Repr

/-- A good report as handed over by a Field Line Controller (R158, Table 12-7): its capture count and the
fields of the frame. -/
structure Report where
  captured : Count
  cycleCounter : Byte
  elapsed : Nat
  running : Option Byte
  held : Option Byte
  flags : Byte
  relayAck : Byte
deriving DecidableEq, Repr

/-- The last report of a tracker record (Table 5-1). -/
structure LastReport where
  captured : Count
  cycleCounter : Byte
  elapsed : Nat
  running : Option Byte
  held : Option Byte
  blocking : Bool
deriving DecidableEq, Repr

/-- A site tracker record (Table 5-1). -/
structure Tracker where
  state : TrackerState
  anchor : Bool
  lastZero : Option Count
  baseline : Option Byte
  stateAtZero : Option TrackerState
  runningAtZero : Option Byte
  lastReport : Option LastReport
  lagObserved : Option Nat
  ring : List Order
  nextSequence : Byte
  previous : Option AnyTarget
  seekBlocked : Option TargetId
  computation : Option Computation
deriving DecidableEq, Repr

/-- A tracker record after any reset (Table 5-1). -/
def Tracker.reset : Tracker :=
  { state := .offline, anchor := false, lastZero := none, baseline := none, stateAtZero := none,
    runningAtZero := none, lastReport := none, lagObserved := none, ring := [], nextSequence := 0,
    previous := none, seekBlocked := none, computation := none }

/-! ### Conformance Monitor (R113, R115) -/

/-- Sign of a deviation (R117). -/
inductive DevSign where
  | long
  | short
deriving DecidableEq, Repr

/-- A monitor record but for the hold mark, which lies in the retained domain (Table 6-1). -/
structure MonitorRecord where
  deviations : Nat
  sign : Option DevSign
  lastDisturbance : Option Count
deriving DecidableEq, Repr

/-- A monitor record after any reset (Table 6-1). -/
def MonitorRecord.reset : MonitorRecord := { deviations := 0, sign := none, lastDisturbance := none }

/-- A zero that the STU hands to the CM (R109). `ran` is the order that ran in the completed cycle, or none;
`disturbance` is the site's last disturbance count as the report that shows the zero leaves it (R114); `stateAfter`
is the state after the classification, `lagObserved` the observed lag, and `issued` the order computed at the zero
with its computation, for the watch (R126). `watched` says whether the site was the watched site at the
hand-over (R125). -/
structure HandedZero where
  site : Nat
  zero : Count
  before : Option Count
  delta : Option Nat
  ran : Option Order
  startState : Option TrackerState
  blocking : Bool
  disturbance : Option Count
  stateAfter : TrackerState
  lagObserved : Option Nat
  issued : Option (Order × Computation)
  watched : Bool
deriving DecidableEq, Repr

/-- The Conformance Monitor (R113), with the zeros handed to it and not yet judged, oldest first (DESIGN CHOICE, assumption
log 13). -/
structure Monitor where
  records : Table MonitorRecord
  tolerance : Nat
  limitCode : Nat
  watched : Nat
  zeros : List HandedZero
deriving DecidableEq, Repr

/-! ### Floor Store (R129 to R139) -/

/-- The three stored parts of a floor entry (R129), in one-time storage. -/
structure FloorEntry where
  image : Image
  commit : Bool
  failure : Bool
deriving DecidableEq, Repr

/-- A blank floor entry (R130). -/
def FloorEntry.blank : FloorEntry := { image := 0, commit := false, failure := false }

/-- What the one programmer is doing (R133, R138, R142). -/
inductive Programmer where
  | idle
  | floor (site : Nat) (values : FloorValues)
  | lock
deriving DecidableEq, Repr

/-- The Floor Store: the one-time storage (`entries`, `lockMark`), the tables built at restart (R136), the
commissioning window, which is OPEN exactly while `windowOpen` is set (R139), and the programmer. -/
structure FloorStore where
  entries : Table FloorEntry
  lockMark : Bool
  effective : Table (Option FloorValues)
  lockInEffect : Bool
  windowOpen : Bool
  windowCount : Nat
  programmer : Programmer
deriving DecidableEq, Repr

/-! ### Roster and Field Line Controllers (R144 to R163) -/

/-- A roster entry (R144). -/
structure RosterEntry where
  line : Nat
  address : Nat
  group : Nat
deriving DecidableEq, Repr

/-- Outcome of an exchange (R157). -/
inductive ExchangeOutcome where
  | good
  | noReply
  | badCrc
  | wrongAddress
  | truncated
deriving DecidableEq, Repr

/-- A link record (R144). -/
structure LinkRecord where
  online : Bool
  misses : Nat
  pendingOrder : Option Order
  relay : Byte
  relayInFlight : Byte
  lastOutcome : Option ExchangeOutcome
deriving DecidableEq, Repr

/-- A link record after any reset (R144). -/
def LinkRecord.reset : LinkRecord :=
  { online := false, misses := 0, pendingOrder := none, relay := 0, relayInFlight := 0, lastOutcome := none }

/-- Field-line bit rate (Table 8-1). -/
inductive LineRate where
  | r9600
  | r19200
  | r38400
  | r57600
deriving DecidableEq, Repr

/-- Line settings (Table 8-1). `activeLow` is the indicator polarity. -/
structure LineSettings where
  enabled : Bool
  bitRate : LineRate
  timeout : Nat
  mode : Nat
  activeLow : Bool
  manual : Bool
deriving DecidableEq, Repr

/-- The default line settings (Table 8-1). -/
def LineSettings.default : LineSettings :=
  { enabled := true, bitRate := .r38400, timeout := 20, mode := 1, activeLow := false, manual := false }

/-- Line state (R163). -/
inductive LineState where
  | disabled
  | idle
  | active
  | degraded
  | down
deriving DecidableEq, Repr

/-- How far a poll exchange has come (R155, R156): DE is asserted exactly while it is `sending`. -/
inductive ExchangePhase where
  | sending
  | waiting
  | receiving (captured : Count)
deriving DecidableEq, Repr

/-- A poll exchange in flight (R155): the site and address polled, the poll's bytes, the bit rate and reply
timeout it began with (R149), and whether a roster edit has made its outcome void (R154). -/
structure Exchange where
  site : Nat
  address : Nat
  poll : List Byte
  bitRate : LineRate
  timeout : Nat
  phase : ExchangePhase
  void : Bool
deriving DecidableEq, Repr

/-- A round under way (R153): the sites still to be polled, and whether its list was formed empty. -/
structure Round where
  remaining : List Nat
  formedEmpty : Bool
deriving DecidableEq, Repr

/-- A last-fault record (R160). -/
structure FaultRecord where
  outcome : ExchangeOutcome
  site : Nat
  address : Nat
  source : Option Nat
  count : Count
  misses : Nat
deriving DecidableEq, Repr

/-- One Field Line Controller (R149, R153, R160, R163). -/
structure Line where
  settings : LineSettings
  state : LineState
  roundCounter : Nat
  round : Option Round
  exchange : Option Exchange
  lastFault : Option FaultRecord
  faultTotal : Nat
deriving DecidableEq, Repr

/-- A line before its settings are loaded: default settings, no entries (R149, R166). -/
def Line.reset : Line :=
  { settings := LineSettings.default, state := .idle, roundCounter := 0, round := none, exchange := none,
    lastFault := none, faultTotal := 0 }

/-- A good report as it is handed to the STU, with the site's last disturbance count as the report leaves it, for the
judgement of a zero that it shows (R114; the model's own, DEDUCED, assumption log 31). -/
structure StuReport where
  report : Report
  disturbance : Option Count
deriving DecidableEq, Repr

/-- The good reports handed to the STU, the CM and the FU and not yet taken, oldest first, each with its site
(R158; the lists are the model's own, DESIGN CHOICE, assumption log 14). -/
structure Handed where
  stu : List (Nat × StuReport)
  cm : List (Nat × Report)
  fu : List (Nat × Report)
deriving DecidableEq, Repr

/-! ### Flag Unit (R167) -/

/-- The Flag Unit (R167). -/
structure FlagUnit where
  raised : Table Byte
  mask : Byte
  attn : Bool
deriving DecidableEq, Repr

/-! ### Frames: replies and notices -/

/-- Status codes (Table 10-1). -/
inductive Status where
  | ok
  | adjusted
  | busy
  | queueFull
  | unknownKind
  | badLength
  | outOfRange
  | notFound
  | wrongState
  | duplicate
  | noSpace
  | locked
  | notCommissioning
  | noTime
deriving DecidableEq, Repr

/-- One field of a reply or notice, by its type of Table 12-1. `named` is the place of a field in the owning
rule's list, where a refusal names a field; `places` is a list of the eight places of lengths. -/
inductive Field where
  | byte (n : Nat)
  | site (n : Nat)
  | length (n : Nat)
  | signed (z : Int)
  | count (c : Count)
  | day (n : Nat)
  | timeOfDay (n : Nat)
  | minute (n : Nat)
  | total (n : Nat)
  | large (n : Nat)
  | checkCode (c : CheckCode)
  | mark (b : Bool)
  | code (n : Nat)
  | flags (b : Byte)
  | places (l : List Nat)
  | image (b : Image)
  | named (n : Nat)
deriving DecidableEq, Repr

/-- A reply (R183): the tag and kind of the request answered, the status and the result fields. -/
structure Reply where
  tag : Byte
  kind : Byte
  status : Status
  fields : List Field
deriving DecidableEq, Repr

/-- The notices of Table 10-5, in its order, which is the order of their kind codes from 0xC0 (Table 12-4). -/
inductive NoticeKind where
  | started
  | frameRejected
  | noticesLost
  | timeStepped
  | ppsLost
  | planChecked
  | storeDone
  | floorDone
  | switchDone
  | groupSettled
  | entryTaken
  | planMissing
  | siteState
  | siteHeld
  | seekBlocked
  | flagsRaised
  | lineState
  | watch
deriving DecidableEq, Repr

/-- A notice (R187): its kind and the fields of its body in the order of Table 12-9, formed when it is
raised. -/
structure Notice where
  kind : NoticeKind
  fields : List Field
deriving DecidableEq, Repr

/-! ### Link Controller (R179 to R188) -/

/-- The receive framer (R179), with what it has taken of the frame so far. -/
inductive Framer where
  | hunt
  | length (first : Option Byte)
  | header (length : Nat) (kind : Option Byte)
  | body (length : Nat) (kind tag : Byte) (got : List Byte)
  | check (length : Nat) (kind tag : Byte) (got : List Byte) (first : Option Byte)
deriving DecidableEq, Repr

/-- A request record (R181). -/
structure RequestRecord where
  kind : Byte
  tag : Byte
  body : List Byte
  arrived : Count
deriving DecidableEq, Repr

/-- The frame in flight on PLK_TXD (R186). -/
inductive TxFrame where
  | queueFull (kind tag : Byte)
  | reply (r : Reply)
  | notice (n : Notice)
deriving DecidableEq, Repr

/-- The Link Controller. `firstLost` is the kind and count of the first notice dropped; `stopped` is set from
the serving of RESTART to the reset that follows its reply (R191); `rate` is the code of the bit rate that the
straps gave at the last reset (R176). -/
structure LinkController where
  framer : Framer
  queue : List RequestRecord
  refusals : List (Byte × Byte)
  replySlot : Option Reply
  notices : List Notice
  lostMark : Bool
  lostCount : Nat
  firstLost : Option (NoticeKind × Count)
  rejectedTotal : Nat
  refusalTotal : Nat
  inFlight : Option TxFrame
  stopped : Bool
  rate : Nat
deriving DecidableEq, Repr

/-- The Link Controller after any reset, at the rate that the straps gave (R192). -/
def LinkController.reset (rate : Nat) : LinkController :=
  { framer := .hunt, queue := [], refusals := [], replySlot := none, notices := [], lostMark := false,
    lostCount := 0, firstLost := none, rejectedTotal := 0, refusalTotal := 0, inFlight := none,
    stopped := false, rate := rate }

/-! ### Nonvolatile Store (R195 to R197) -/

/-- One store section: its content, and the bytes of the section check directly after it, low byte first (R203). A
section that is erased, or whose check was never written, has none (R195). -/
structure Section where
  content : List Byte
  check : List Byte
deriving DecidableEq, Repr

/-- An erased section (R195). -/
def Section.erased : Section := { content := [], check := [] }

/-- A store operation in progress (R197): the count at acceptance, and for each section finished its result
(true for STORED) and the number of items written. -/
structure StoreOperation where
  accepted : Count
  finished : List (Bool × Nat)
deriving DecidableEq, Repr

/-- The Nonvolatile Store: four sections in the order of Table 11-1, and the store operation, whose presence is the
store-in-progress mark (R196). -/
structure NvStore where
  roster : Section
  settings : Section
  plans : Section
  timetables : Section
  operation : Option StoreOperation
deriving DecidableEq, Repr

/-! ### Start-up Control and the retained domain (R193 to R201) -/

/-- Reset cause (R193). -/
inductive ResetCause where
  | powerOn
  | resetPin
  | restartRequest
deriving DecidableEq, Repr

/-- Where the part is: held in reset by the RESET input, or in a start-up state (R198). -/
inductive Phase where
  | held
  | loading
  | running
deriving DecidableEq, Repr

/-- Result of a section at load (R199). -/
inductive LoadResult where
  | loaded
  | checkFailed
  | invalid
deriving DecidableEq, Repr

/-- What start-up has found while rebuilding the tables (R199), for the STARTED notice: the result and item count of
each section, the COMMITTED floor entries passed over, the slots loaded POSTED and, of those, the ones returned to
FILLING. -/
structure LoadReport where
  sections : List (LoadResult × Nat)
  passedOver : Nat
  posted : Nat
  returned : Nat
deriving DecidableEq, Repr

/-- The Start-up Control. `rebuilt` is present once start-up has rebuilt the tables (R199). -/
structure StartUp where
  phase : Phase
  rebuilt : Option LoadReport
deriving DecidableEq, Repr

/-- The retained domain but for the Time Base (R194): reset cause, resume records, hold marks. -/
structure Retained where
  cause : ResetCause
  resume : Table ResumeRecord
  holds : Table Bool
deriving DecidableEq, Repr

/-- Levels of the input pins as last seen: the rate straps and COMMISSION_EN (Table 0-2). The level of RESET
is asserted exactly while the phase is `held`. -/
structure Pins where
  rate1 : Bool
  rate0 : Bool
  commissionEn : Bool
deriving DecidableEq, Repr

/-! ### The part -/

/-- Why the part stops. No command stops this part: the manual names no event after which it does not go on, and
no meaning answers with a fault. -/
inductive Fault where
  /-- Raised by no command; safe. -/
  | never
deriving DecidableEq, Repr

/-- Why a command has no meaning. -/
inductive Refusal where
  /-- Raised by `exec` for a command that has no meaning in the model; safe. No arm of `exec` raises it. -/
  | notModelled (mnemonic : String)
deriving DecidableEq, Repr

/-- The state of the part. `roster` and the tables of `groups` (GCU), `trackers` (STU), `links` and `lines` (FLC) are
keyed by site, group or line number. `pending` is the queue of commands that wait, first in first out. -/
structure State where
  time : TimeBase
  retained : Retained
  library : PlanLibrary
  resolver : Resolver
  groups : Table GroupRecord
  trackers : Table Tracker
  monitor : Monitor
  floors : FloorStore
  roster : Table (Option RosterEntry)
  links : Table LinkRecord
  lines : Table Line
  handed : Handed
  flags : FlagUnit
  link : LinkController
  store : NvStore
  startUp : StartUp
  pins : Pins
  pending : List Instr
deriving DecidableEq, Repr

/-- The Plan Library before start-up builds its free list (R39). -/
def PlanLibrary.reset : PlanLibrary := { slots := [], freeList := [], checkQueue := [], checking := false }

/-- The Schedule Resolver with empty tables (R62). -/
def Resolver.reset : Resolver :=
  { programs := [], weeks := [], events := [], sequence := 1, forces := [], governing := [], owed := [] }

/-- The Conformance Monitor with default settings (Table 6-2). -/
def Monitor.reset : Monitor := { records := [], tolerance := 10, limitCode := 3, watched := 0, zeros := [] }

/-- The Floor Store of a part delivered new (R130), its window CLOSED (R139). -/
def FloorStore.delivered : FloorStore :=
  { entries := [], lockMark := false, effective := [], lockInEffect := false, windowOpen := false,
    windowCount := 0, programmer := .idle }

/-- The Flag Unit with every set empty and the default mask of all eight flags (R167). -/
def FlagUnit.reset : FlagUnit := { raised := [], mask := 255, attn := false }

/-- The Nonvolatile Store of a part delivered new (R195). -/
def NvStore.delivered : NvStore :=
  { roster := Section.erased, settings := Section.erased, plans := Section.erased,
    timetables := Section.erased, operation := none }

/-- The machine right after reset: a part delivered new, after a POWER-ON reset, LOADING (R193, R198), its straps
read low and COMMISSION_EN deasserted (assumption log 3). -/
def State.reset : State :=
  { time := TimeBase.powerOn
    retained := { cause := .powerOn, resume := [], holds := [] }
    library := PlanLibrary.reset
    resolver := Resolver.reset
    groups := []
    trackers := []
    monitor := Monitor.reset
    floors := FloorStore.delivered
    roster := []
    links := []
    lines := []
    handed := { stu := [], cm := [], fu := [] }
    flags := FlagUnit.reset
    link := LinkController.reset 0
    store := NvStore.delivered
    startUp := { phase := .loading, rebuilt := none }
    pins := { rate1 := false, rate0 := false, commissionEn := false }
    pending := [] }

end Sys2Proof.Machine
end

