-- ==== Sys2Proof/Machine/Ops.lean ====
section
/-! DEFINITION. The operations every block shares: the records of a table, counts and their signed difference,
bytes, codes, the roster's views, notices and replies. -/

namespace Sys2Proof.Machine

/-! ### Tables -/

/-- The record of number `k`: `d` where the table lists none. -/
def Table.get {α : Type} (d : α) : Table α → Nat → α
  | [], _ => d
  | e :: r, k => if e.1 = k then e.2 else Table.get d r k

/-- The table without a record for `k`. -/
def Table.erase {α : Type} (t : Table α) (k : Nat) : Table α :=
  t.filter (fun e => e.1 != k)

/-- The table with a record for `k`, before the first higher number. -/
def Table.insert {α : Type} : Table α → Nat → α → Table α
  | [], k, v => [(k, v)]
  | e :: r, k, v => if k < e.1 then (k, v) :: e :: r else e :: Table.insert r k v

/-- The table with `v` as the record of `k`; the default record `d` is left unlisted. -/
def Table.set {α : Type} [DecidableEq α] (d : α) (t : Table α) (k : Nat) (v : α) : Table α :=
  if v = d then Table.erase t k else Table.insert (Table.erase t k) k v

/-- The canonical form: numbers strictly rising, no record equal to the default. -/
def Table.wf {α : Type} [DecidableEq α] (d : α) : Table α → Bool
  | [] => true
  | e :: r => decide (e.2 ≠ d) && r.all (fun f => e.1 < f.1) && Table.wf d r

/-! ### Counts, numbers and lists -/

/-- The difference of two counts, read as a signed number (Introduction 2.4). -/
def sdiff (a b : Count) : Int := (a - b).toInt

/-- `a` is at or after `b` (Introduction 2.4). -/
def atOrAfter (a b : Count) : Bool := decide (0 ≤ sdiff a b)

/-- A count some ds later, modulo 2^32. -/
def later (a : Count) (ds : Nat) : Count := a + BitVec.ofNat 32 ds

/-- ceil(a / b) for b above 0. -/
def ceilDiv (a b : Nat) : Nat := (a + b - 1) / b

/-- One more, holding at `top`. -/
def countUp (top n : Nat) : Nat := min top (n + 1)

/-- The number with the least key among the sites of a list, inserted in rising order of key. -/
def insertBy (key : Nat → Nat) (x : Nat) : List Nat → List Nat
  | [] => [x]
  | y :: r => if key x ≤ key y then x :: y :: r else y :: insertBy key x r

/-- A list in rising order of key. -/
def sortBy (key : Nat → Nat) : List Nat → List Nat
  | [] => []
  | x :: r => insertBy key x (sortBy key r)

/-- The first place at which the list repeats an earlier item. -/
def firstRepeat (l : List Nat) : Option Nat :=
  (List.range l.length).find? (fun j => (l.take j).contains (l.getD j 0))

/-- The sum of a list. -/
def sumOf (l : List Nat) : Nat := l.foldr (· + ·) 0

/-- The first `k` items, and zeros in the places that the list does not fill. -/
def padTo (k : Nat) (l : List Nat) : List Nat := (List.range k).map (fun i => l.getD i 0)

/-- A list applied one after another to the state. -/
def forEach {α : Type} (l : List α) (f : α → State → State) (s : State) : State :=
  l.foldl (fun s x => f x s) s

/-! ### Codes (Table 12-2) -/

/-- Code of a mark (R202). -/
def markCode (b : Bool) : Nat := if b then 1 else 0

/-- Discipline state code. -/
def Discipline.code : Discipline → Nat
  | .never => 0 | .locked => 1 | .holdover => 2

/-- Capture verdict code. -/
def Verdict.code : Verdict → Nat
  | .never => 0 | .accepted => 1 | .rejected => 2

/-- Correction mode code. -/
def CorrMode.code : CorrMode → Nat
  | .best => 0 | .lengthen => 1 | .shorten => 2

/-- The correction mode that a code names; any other code is unknown. -/
def CorrMode.ofCode : Nat → Option CorrMode
  | 0 => some .best | 1 => some .lengthen | 2 => some .shorten | _ => none

/-- Slot state code. -/
def SlotState.code : SlotState → Nat
  | .free => 0 | .filling => 1 | .checking => 2 | .posted => 3 | .retiring => 4

/-- Group state code. -/
def GroupState.code : GroupState → Nat
  | .empty => 0 | .free => 1 | .running => 2 | .pending => 3

/-- Tracker state code. -/
def TrackerState.code : TrackerState → Nat
  | .offline => 0 | .free => 1 | .acquiring => 2 | .seeking => 3 | .inStep => 4

/-- Line state code. -/
def LineState.code : LineState → Nat
  | .disabled => 0 | .idle => 1 | .active => 2 | .degraded => 3 | .down => 4

/-- Order kind code. -/
def OrderKind.code : OrderKind → Nat
  | .free => 0 | .nominal => 1 | .shortened => 2 | .lengthened => 3

/-- Order cause code. -/
def OrderCause.code : OrderCause → Nat
  | .zero => 0 | .first => 1 | .recompute => 2 | .freeing => 3

/-- Direction code of an order (R126): NONE, SHORTEN, LENGTHEN. -/
def OrderKind.direction : OrderKind → Nat
  | .free => 0 | .nominal => 0 | .shortened => 1 | .lengthened => 2

/-- Nominal reason code. -/
def NominalReason.code : NominalReason → Nat
  | .nothing => 0 | .nominalLag => 1 | .held => 2 | .disturbed => 3 | .blocked => 4

/-- Sign code. -/
def DevSign.code : DevSign → Nat
  | .long => 0 | .short => 1

/-- Source kind code. -/
def SourceKind.code : SourceKind → Nat
  | .nothing => 0 | .force => 1 | .event => 2 | .programEntry => 3

/-- Exchange outcome code. -/
def ExchangeOutcome.code : ExchangeOutcome → Nat
  | .good => 0 | .noReply => 1 | .badCrc => 2 | .wrongAddress => 3 | .truncated => 4

/-- Field-line bit rate code. -/
def LineRate.code : LineRate → Nat
  | .r9600 => 0 | .r19200 => 1 | .r38400 => 2 | .r57600 => 3

/-- The field-line bit rate that a code names. -/
def LineRate.ofCode : Nat → Option LineRate
  | 0 => some .r9600 | 1 => some .r19200 | 2 => some .r38400 | 3 => some .r57600 | _ => none

/-- Load result code. -/
def LoadResult.code : LoadResult → Nat
  | .loaded => 0 | .checkFailed => 1 | .invalid => 2

/-- Reset cause code. -/
def ResetCause.code : ResetCause → Nat
  | .powerOn => 0 | .resetPin => 1 | .restartRequest => 2

/-- Place of a notice kind in Table 10-5. -/
def NoticeKind.place : NoticeKind → Nat
  | .started => 0 | .frameRejected => 1 | .noticesLost => 2 | .timeStepped => 3 | .ppsLost => 4
  | .planChecked => 5 | .storeDone => 6 | .floorDone => 7 | .switchDone => 8 | .groupSettled => 9
  | .entryTaken => 10 | .planMissing => 11 | .siteState => 12 | .siteHeld => 13 | .seekBlocked => 14
  | .flagsRaised => 15 | .lineState => 16 | .watch => 17

/-- Kind code of a notice: 0xC0 to 0xD1 in the order of Table 10-5 (Table 12-4). -/
def NoticeKind.code (k : NoticeKind) : Byte := BitVec.ofNat 8 (0xC0 + k.place)

/-- Status code (Table 12-3). -/
def Status.code : Status → Nat
  | .ok => 0 | .adjusted => 1 | .busy => 2 | .queueFull => 3 | .unknownKind => 4 | .badLength => 5
  | .outOfRange => 6 | .notFound => 7 | .wrongState => 8 | .duplicate => 9 | .noSpace => 10 | .locked => 11
  | .notCommissioning => 12 | .noTime => 13

/-! ### Records of the state -/

/-- The present coordination count (R7). -/
def State.now (s : State) : Count := s.time.count

/-- The part is RUNNING (R198). -/
def State.isRunning (s : State) : Bool := decide (s.startUp.phase = .running)

/-- STORE-TABLES is in progress: the store-in-progress mark (R196). -/
def State.storing (s : State) : Bool := s.store.operation.isSome

/-- A plan slot (R18). -/
def State.slot (s : State) (n : Nat) : Slot := Table.get Slot.empty s.library.slots n

/-- The state with slot `n` replaced. -/
def State.setSlot (s : State) (n : Nat) (v : Slot) : State :=
  { s with library := { s.library with slots := Table.set Slot.empty s.library.slots n v } }

/-- A group record (R63). -/
def State.group (s : State) (g : Nat) : GroupRecord := Table.get GroupRecord.empty s.groups g

/-- The state with group record `g` replaced. -/
def State.setGroup (s : State) (g : Nat) (v : GroupRecord) : State :=
  { s with groups := Table.set GroupRecord.empty s.groups g v }

/-- A resume record (R82). -/
def State.resumeOf (s : State) (g : Nat) : ResumeRecord := Table.get ResumeRecord.free s.retained.resume g

/-- The state with resume record `g` replaced. -/
def State.setResume (s : State) (g : Nat) (v : ResumeRecord) : State :=
  { s with retained := { s.retained with resume := Table.set ResumeRecord.free s.retained.resume g v } }

/-- A site's hold mark (R113). -/
def State.held (s : State) (n : Nat) : Bool := Table.get false s.retained.holds n

/-- The state with a site's hold mark replaced. -/
def State.setHeld (s : State) (n : Nat) (b : Bool) : State :=
  { s with retained := { s.retained with holds := Table.set false s.retained.holds n b } }

/-- A site tracker record (R84). -/
def State.tracker (s : State) (n : Nat) : Tracker := Table.get Tracker.reset s.trackers n

/-- The state with a site tracker record replaced. -/
def State.setTracker (s : State) (n : Nat) (v : Tracker) : State :=
  { s with trackers := Table.set Tracker.reset s.trackers n v }

/-- A monitor record (R113). -/
def State.monitorOf (s : State) (n : Nat) : MonitorRecord :=
  Table.get MonitorRecord.reset s.monitor.records n

/-- The state with a monitor record replaced. -/
def State.setMonitor (s : State) (n : Nat) (v : MonitorRecord) : State :=
  { s with monitor := { s.monitor with records := Table.set MonitorRecord.reset s.monitor.records n v } }

/-- A floor entry (R129). -/
def State.floorEntry (s : State) (n : Nat) : FloorEntry := Table.get FloorEntry.blank s.floors.entries n

/-- The state with a floor entry replaced. -/
def State.setFloorEntry (s : State) (n : Nat) (v : FloorEntry) : State :=
  { s with floors := { s.floors with entries := Table.set FloorEntry.blank s.floors.entries n v } }

/-- A site's effective floor, or absent (R136). -/
def State.effectiveFloor (s : State) (n : Nat) : Option FloorValues :=
  Table.get none s.floors.effective n

/-- A site's roster entry, or absent (R144). -/
def State.rosterEntry (s : State) (n : Nat) : Option RosterEntry := Table.get none s.roster n

/-- The state with a site's roster entry replaced. -/
def State.setRosterEntry (s : State) (n : Nat) (v : Option RosterEntry) : State :=
  { s with roster := Table.set none s.roster n v }

/-- A site's link record (R144). -/
def State.linkOf (s : State) (n : Nat) : LinkRecord := Table.get LinkRecord.reset s.links n

/-- The state with a site's link record replaced. -/
def State.setLinkOf (s : State) (n : Nat) (v : LinkRecord) : State :=
  { s with links := Table.set LinkRecord.reset s.links n v }

/-- A field line (R149). -/
def State.line (s : State) (l : Nat) : Line := Table.get Line.reset s.lines l

/-- The state with a field line replaced. -/
def State.setLine (s : State) (l : Nat) (v : Line) : State :=
  { s with lines := Table.set Line.reset s.lines l v }

/-- A site's raised-flag set (R167). -/
def State.raisedFlags (s : State) (n : Nat) : Byte := Table.get 0 s.flags.raised n

/-- The state with a site's raised-flag set replaced. -/
def State.setRaisedFlags (s : State) (n : Nat) (v : Byte) : State :=
  { s with flags := { s.flags with raised := Table.set 0 s.flags.raised n v } }

/-- A day program (R40). -/
def State.program (s : State) (p : Nat) : List ProgramEntry := Table.get [] s.resolver.programs p

/-- A group's week table, Monday first (R43). -/
def State.week (s : State) (g : Nat) : List Nat := Table.get (List.replicate 7 0) s.resolver.weeks g

/-- An event entry, or empty (R44). -/
def State.event (s : State) (id : Nat) : Option EventEntry := Table.get none s.resolver.events id

/-- A group's force, or none (R49). -/
def State.forceOf (s : State) (g : Nat) : Option Force := Table.get none s.resolver.forces g

/-- The state with a group's force replaced. -/
def State.setForce (s : State) (g : Nat) (v : Option Force) : State :=
  { s with resolver := { s.resolver with forces := Table.set none s.resolver.forces g v } }

/-- A group's governing record (R52). -/
def State.governing (s : State) (g : Nat) : Governing := Table.get Governing.reset s.resolver.governing g

/-- The state with a group's governing record replaced. -/
def State.setGoverning (s : State) (g : Nat) (v : Governing) : State :=
  { s with resolver := { s.resolver with governing := Table.set Governing.reset s.resolver.governing g v } }

/-! ### Views -/

/-- Group state, by the fields the record holds (R64). -/
def GroupRecord.state (r : GroupRecord) : GroupState :=
  if r.members = 0 then .empty
  else if r.pending.isSome then .pending
  else if r.reference.isSome then .running
  else .free

/-- Underlying state: the state that a PENDING group keeps until Ts (Table 4-1). -/
def GroupRecord.underlying (r : GroupRecord) : Option GroupState :=
  if r.state = .pending then some (if r.reference.isSome then .running else .free) else none

/-- The roster sites that a predicate on the entry picks, in the roster's order. -/
def State.sitesWhere (s : State) (p : RosterEntry → Bool) : List Nat :=
  s.roster.filterMap (fun e => if e.2.any p then some e.1 else none)

/-- The members of a group, in rising order (R63). -/
def State.membersOf (s : State) (g : Nat) : List Nat := s.sitesWhere (fun e => e.group == g)

/-- The roster sites of a line, in rising order (R144). -/
def State.sitesOn (s : State) (l : Nat) : List Nat := s.sitesWhere (fun e => e.line == l)

/-- The group of a site, 0 when it is unassigned or not in the roster. -/
def State.groupOf (s : State) (n : Nat) : Nat := ((s.rosterEntry n).map (·.group)).getD 0

/-- A site is online and coordinated: ACQUIRING, SEEKING or IN-STEP (R79). -/
def TrackerState.isCoordinated : TrackerState → Bool
  | .offline => false | .free => false | .acquiring => true | .seeking => true | .inStep => true

/-- The minute of day of a time of day (R9). -/
def minuteOf (timeOfDay : Nat) : Nat := timeOfDay / 600

/-- The weekday of a day number, 0 for Monday (R9). -/
def weekdayOf (day : Nat) : Nat := (day + 5) % 7

/-- All numbers of a range from 1. -/
def upTo (n : Nat) : List Nat := (List.range n).map (· + 1)

/-- How many numbers of a list pass a test. -/
def countWhere (l : List Nat) (p : Nat → Bool) : Nat := (l.filter p).length

/-! ### Optional fields (R204) -/

/-- An optional field: whether it is present, and its fields, filled with 0 when it is not. -/
abbrev Optional := Bool × List Field

/-- A field that may be absent; `zero` fills its place. -/
def may {α : Type} (o : Option α) (zero : α) (f : α → List Field) : Optional :=
  (o.isSome, f (o.getD zero))

/-- A field listed behind the presence bytes that is always there. -/
def always (f : List Field) : Optional := (true, f)

/-- The presence byte of eight fields at most, bit 0 first. -/
def presenceByte : List Bool → Nat
  | [] => 0
  | b :: r => markCode b + 2 * presenceByte r

/-- The presence bytes of a list of fields, eight to a byte; `fuel` is the number of bytes at most. -/
def presenceBytes : Nat → List Bool → List Field
  | 0, _ => []
  | fuel + 1, l => if l.isEmpty then [] else .byte (presenceByte (l.take 8)) :: presenceBytes fuel (l.drop 8)

/-- Presence bytes followed by the fields they speak of; a part with `none` for its mark uses a sentinel and
has no bit (DESIGN CHOICE where no table lays the reply out, assumption log 17). -/
def withPresence (parts : List (Option Bool × List Field)) : List Field :=
  presenceBytes parts.length (parts.filterMap (·.1)) ++ parts.flatMap (·.2)

/-- An optional part of `withPresence`. -/
def opt (o : Optional) : Option Bool × List Field := (some o.1, o.2)

/-- A part of `withPresence` that uses a sentinel. -/
def sentinel (f : List Field) : Option Bool × List Field := (none, f)

/-- A list: its count as a byte number, then its items (R204). -/
def counted {α : Type} (l : List α) (f : α → List Field) : List Field :=
  .byte l.length :: l.flatMap f

/-! ### Notices and replies -/

/-- A notice joins the notice queue, or is dropped when the queue holds 64 (R187, R188). -/
def raise (kind : NoticeKind) (fields : List Field) (s : State) : State :=
  let l := s.link
  if l.notices.length < Config.noticeQueue then
    { s with link := { l with notices := l.notices ++ [{ kind := kind, fields := fields }] } }
  else
    { s with link := { l with
        lostMark := true
        lostCount := countUp 65535 (if l.lostMark then l.lostCount else 0)
        firstLost := if l.lostMark then l.firstLost else some (kind, s.now) } }

/-- A reply is placed in the reply slot (R182). -/
def answer (kind tag : Byte) (status : Status) (fields : List Field) (s : State) : State :=
  { s with link := { s.link with
      replySlot := some { tag := tag, kind := kind, status := status, fields := fields } } }

end Sys2Proof.Machine
end

