-- ==== Sys2Proof/Machine/Frames.lean ====
section
/-! DEFINITION. Bytes and checks (R177, R178, R195, R202 to R206): the encoding of every field, the two cyclic
checks, the records whose bytes they cover, and the frames that leave the part. -/

namespace Sys2Proof.Machine

/-! ### Checks (R203) -/

/-- One bit of the 16-bit check: polynomial 0x1021, most significant bit first. -/
def crc16Bit (r : BitVec 16) : BitVec 16 :=
  if r.msb then (r <<< 1) ^^^ 0x1021#16 else r <<< 1

/-- One byte of the 16-bit check. -/
def crc16Byte (r : BitVec 16) (b : Byte) : BitVec 16 :=
  Nat.repeat crc16Bit 8 (r ^^^ (BitVec.zeroExtend 16 b <<< 8))

/-- The 16-bit check of a list of bytes: initial value 0xFFFF, no final inversion. -/
def crc16 (l : List Byte) : BitVec 16 := l.foldl crc16Byte 0xFFFF#16

/-- One bit of the 32-bit section check: polynomial 0xEDB88320, least significant bit first. -/
def crc32Bit (r : BitVec 32) : BitVec 32 :=
  if r.getLsbD 0 then (r >>> 1) ^^^ 0xEDB88320#32 else r >>> 1

/-- One byte of the 32-bit section check. -/
def crc32Byte (r : BitVec 32) (b : Byte) : BitVec 32 :=
  Nat.repeat crc32Bit 8 (r ^^^ BitVec.zeroExtend 32 b)

/-- The section check of a list of bytes: initial value 0xFFFFFFFF, result inverted (R195). -/
def crc32 (l : List Byte) : BitVec 32 := ~~~ (l.foldl crc32Byte 0xFFFFFFFF#32)

/-! ### Fields (Table 12-1) -/

/-- The bytes of a field by its type, least significant first (R202). A field's name is a free value. -/
def Field.bytes : Field → List Byte
  | .byte n => leBytes 1 n
  | .site n => leBytes 2 n
  | .length n => leBytes 2 n
  | .signed z => leBytes 4 (BitVec.ofInt 32 z).toNat
  | .count c => leBytes 4 c.toNat
  | .day n => leBytes 2 n
  | .timeOfDay n => leBytes 4 n
  | .minute n => leBytes 2 n
  | .total n => leBytes 2 n
  | .large n => leBytes 4 n
  | .checkCode c => leBytes 2 c.toNat
  | .mark b => leBytes 1 (markCode b)
  | .code n => leBytes 1 n
  | .flags b => [b]
  | .places l => (padTo 8 l).flatMap (leBytes 2)
  | .image b => leBytes 21 b.toNat
  | .named n => [Config.fieldName n]

/-- The bytes of a list of fields. -/
def fieldBytes (l : List Field) : List Byte := l.flatMap Field.bytes

/-- A byte field that is absent by a sentinel of 255 (R204). -/
def slotField (o : Option Nat) : Field := .byte (o.getD 255)

/-! ### Records (12.5) -/

/-- The fields of a plan header (Table 12-5). -/
def PlanHeader.fields (h : PlanHeader) : List Field :=
  [.byte h.plan, .byte h.group, .length h.cycle, .code h.mode.code, .byte h.shorten, .byte h.lengthen,
   .byte h.window, .byte h.cohortKey, .byte h.count]

/-- The place of an absent plan header (R204). -/
def PlanHeader.absent : PlanHeader :=
  { plan := 0, group := 0, cycle := 0, mode := .best, shorten := 0, lengthen := 0, window := 0,
    cohortKey := 0, count := 0 }

/-- The fields of a site entry (Table 12-5). -/
def SiteEntry.fields (e : SiteEntry) : List Field :=
  [.site e.site, .length e.offset, .byte e.splits.length,
   .code ((e.modeOverride.map CorrMode.code).getD 255), .places e.splits]

/-- The entries of a record at indices 0 to count−1, in index order (R17). -/
def Slot.recordEntries (v : Slot) : List SiteEntry :=
  match v.header with
  | none => []
  | some h => (List.range h.count).filterMap (fun i => Table.get none v.entries i)

/-- The bytes of a plan record: header, then entries 0 to count−1 (R36, R203). -/
def Slot.recordBytes (v : Slot) : List Byte :=
  match v.header with
  | none => []
  | some h => fieldBytes h.fields ++ v.recordEntries.flatMap (fun e => fieldBytes e.fields)

/-- The fields of a program entry (12.5). -/
def ProgramEntry.fields (e : ProgramEntry) : List Field := [.minute e.start, .byte e.plan, .mark e.notify]

/-- The plan, window and program fields of an event entry; the fields of the other action are 0 (Table 12-6). -/
def EventAction.fields : EventAction → List Field
  | .plan n a b => [.code 0, .byte n, .minute a, .minute b, .byte 0]
  | .program p => [.code 1, .byte 0, .minute 0, .minute 0, .byte p]

/-- The fields of an event entry in the READ-EVENT form: the write sequence number after the id (Table 12-6). -/
def eventFields (id : Nat) (e : EventEntry) : List Field :=
  [.byte id, .large e.sequence, .day e.firstDay, .day e.lastDay, .flags e.weekdays] ++ e.action.fields
    ++ [.byte e.priority, .mark e.notify] ++ counted e.groups (fun g => [.byte g])

/-- The floor data image of floor values: n, F[0] to F[7], minC, maxC (R205). -/
def FloorValues.image (v : FloorValues) : Image :=
  BitVec.ofNat 168 (leNumber (leBytes 1 v.intervals ++ (padTo 8 v.minimums).flatMap (leBytes 2)
    ++ leBytes 2 v.minCycle ++ leBytes 2 v.maxCycle))

/-- The floor values that an image decodes to, each field as a plain unsigned value; the minimums are F[0] to
F[n−1] (R205). -/
def Image.values (b : Image) : FloorValues :=
  let l := leBytes 21 b.toNat
  { intervals := numberAt 1 0 l, minimums := (numbersAt 2 8 1 l).take (numberAt 1 0 l),
    minCycle := numberAt 2 17 l, maxCycle := numberAt 2 19 l }

/-- The settings of a line, in the order of Table 8-1. -/
def LineSettings.fields (v : LineSettings) : List Field :=
  [.mark v.enabled, .code v.bitRate.code, .byte v.timeout, .byte v.mode, .code (markCode v.activeLow),
   .mark v.manual]

/-! ### Frames that leave the part -/

/-- A planning-link frame (R177): sync, body length, kind, tag, body, and the check over all but the sync. -/
def linkFrame (kind tag : Byte) (body : List Byte) : List Byte :=
  let covered := leBytes 2 body.length ++ [kind, tag] ++ body
  0xA5 :: (covered ++ leBytes 2 (crc16 covered).toNat)

/-- The body of a reply (R183): the kind of the request answered, the status, the result fields. -/
def Reply.body (r : Reply) : List Byte :=
  r.kind :: (leBytes 1 r.status.code ++ fieldBytes r.fields)

/-- The bytes of a frame in flight, as PLK_TXD sends them. A notice's tag is 0 (R177). -/
def TxFrame.bytes : TxFrame → List Byte
  | .queueFull kind tag => linkFrame Kind.reply tag [kind, BitVec.ofNat 8 Status.queueFull.code]
  | .reply r => linkFrame Kind.reply r.tag r.body
  | .notice n => linkFrame n.kind.code 0 (fieldBytes n.fields)

/-- The order fields of a poll: all 0 without an order, and L, n and splits 0 for a FREE order (R206). -/
def orderFields : Option Order → List Field
  | none => [.mark false, .byte 0, .code 0, .length 0, .byte 0, .places []]
  | some o => [.mark true, .byte o.sequence.toNat, .code o.kind.code, .length (o.length.getD 0),
      .byte o.splits.length, .places o.splits]

/-- The 28 bytes of a poll (Table 12-7): the check covers the address byte up to the relay flag set (R203). -/
def pollBytes (address : Nat) (o : Option Order) (relay : Byte) : List Byte :=
  let covered := leBytes 1 address ++ [0x50] ++ fieldBytes (orderFields o) ++ [relay]
  0x7E :: (covered ++ leBytes 2 (crc16 covered).toNat)

/-- What a report frame is judged to be (R157). -/
inductive ReportJudgement where
  | good (r : Report)
  | truncated
  | badCrc
  | wrongAddress (source : Nat)
deriving DecidableEq, Repr

/-- A byte, present when a bit of the order-status byte is set (R204). -/
def presentByte (status : Byte) (bit : Nat) (b : Byte) : Option Byte :=
  if status.getLsbD bit then some b else none

/-- The judgement of the bytes received in answer to a poll (R157, Table 12-7): the first test that holds. Bytes
beyond the report length are not received (R156). -/
def judgeReport (address : Nat) (captured : Count) (received : List Byte) : ReportJudgement :=
  let b := received.take 13
  if b.length < 13 then .truncated
  else if b.getD 0 0 ≠ 0x7E ∨ b.getD 2 0 ≠ 0x52
      ∨ numberAt 2 11 b ≠ (crc16 ((b.drop 1).take 10)).toNat then .badCrc
  else if (b.getD 1 0).toNat ≠ address then .wrongAddress (b.getD 1 0).toNat
  else .good
    { captured := captured, cycleCounter := b.getD 3 0, elapsed := numberAt 2 4 b % 4096,
      running := presentByte (b.getD 6 0) 0 (b.getD 7 0),
      held := presentByte (b.getD 6 0) 1 (b.getD 8 0),
      flags := b.getD 9 0, relayAck := b.getD 10 0 }

end Sys2Proof.Machine
end

