-- ==== Sys2Proof/Machine/Operands.lean ====
section
/-! DEFINITION. The ranges of request operands, field by field in the order in which each owning rule judges
them, and the operands as the part stores them. A fault is the place of the first bad field, counted from 0. -/

namespace Sys2Proof.Machine

/-- The place of the first test that holds, counted from 0. -/
def firstFault (l : List Bool) : Option Nat := l.findIdx? (fun b => b)

/-- A number outside a range. -/
def outside (lo hi n : Nat) : Bool := decide (n < lo) || decide (hi < n)

/-- A site number that is 0 or above 384. -/
def badSite (n : Nat) : Bool := outside 1 Config.sites n

/-- A group number that is 0 or above 64. -/
def badGroup (g : Nat) : Bool := outside 1 Config.groups g

/-- A mark's code that is neither set nor clear (R202). -/
def badMark (m : Nat) : Bool := decide (1 < m)

/-- The first out-of-range field of a plan header, in the order of Table 2-1 (R22). sp and lp are clamped and
never bad, and W is bad only when it is 0. -/
def headerFault (h : RawHeader) : Option Nat :=
  firstFault [outside 1 Config.plans h.plan, badGroup h.group, outside 300 2550 h.cycle,
    (CorrMode.ofCode h.mode).isNone, false, false, decide (h.window = 0), false,
    outside 1 Config.entriesPerPlan h.count]

/-- A plan header as stored: sp, lp and W clamped to 30, 50 and 100 (R22). -/
def storedHeader (h : RawHeader) : PlanHeader :=
  { plan := h.plan, group := h.group, cycle := h.cycle, mode := (CorrMode.ofCode h.mode).getD .best,
    shorten := min 30 h.shorten, lengthen := min 50 h.lengthen, window := min 100 h.window,
    cohortKey := h.cohortKey, count := h.count }

/-- A field of the header was clamped (R22). -/
def headerClamped (h : RawHeader) : Bool :=
  decide (30 < h.shorten) || decide (50 < h.lengthen) || decide (100 < h.window)

/-- The correction-mode override of a site entry: 255 for absent (R204). -/
def overrideOf (code : Nat) : Option CorrMode := CorrMode.ofCode code

/-- A site entry with a field out of range (R23). -/
def badEntry (e : RawEntry) : Bool :=
  badSite e.site || decide (2549 < e.offset) || outside 1 8 e.intervals
    || (e.splits.take e.intervals).any (outside 1 2550)
    || (decide (e.modeOverride ≠ 255) && (CorrMode.ofCode e.modeOverride).isNone)

/-- A site entry as stored: places from n on are ignored (R202). -/
def storedEntry (e : RawEntry) : SiteEntry :=
  { site := e.site, offset := e.offset, splits := padTo e.intervals e.splits,
    modeOverride := overrideOf e.modeOverride }

/-- A program entry with a field out of range (R41). -/
def badProgramEntry (e : RawProgramEntry) : Bool :=
  decide (1439 < e.start) || decide (Config.plans < e.plan) || badMark e.notify

/-- A program entry as stored. -/
def storedProgramEntry (e : RawProgramEntry) : ProgramEntry :=
  { start := e.start, plan := e.plan, notify := decide (e.notify = 1) }

/-- The first entry whose start minute is not above that of the entry before it (R41). -/
def firstUnordered (l : List Nat) : Option Nat :=
  (List.range l.length).find? (fun j => decide (0 < j) && decide (l.getD j 0 ≤ l.getD (j - 1) 0))

/-- The first bad field of an event entry: the id, then the fields in the order of Table 3-1 (R46). -/
def eventFault (e : RawEvent) : Option Nat :=
  firstFault [outside 1 Config.events e.id, decide (e.lastDay < e.firstDay),
    decide (e.weekdays = 0) || e.weekdays.getLsbD 7,
    outside 1 Config.groups e.groups.length || e.groups.any badGroup,
    decide (1 < e.action),
    decide (e.action = 0) && decide (Config.plans < e.plan),
    decide (e.action = 0) && (decide (1439 < e.start) || outside 1 1440 e.stop || decide (e.stop ≤ e.start)),
    decide (e.action = 1) && outside 1 Config.programs e.program,
    outside 1 15 e.priority, badMark e.notify]

/-- An event entry as stored, with its write sequence number (R45). -/
def storedEvent (e : RawEvent) (sequence : Nat) : EventEntry :=
  { firstDay := e.firstDay, lastDay := e.lastDay, weekdays := e.weekdays, groups := e.groups,
    action := if e.action = 0 then .plan e.plan e.start e.stop else .program e.program,
    priority := e.priority, notify := decide (e.notify = 1), sequence := sequence }

/-- The first bad setting of a line (R150), in the order of Table 8-1 (DESIGN CHOICE, assumption log 41). -/
def settingsFault (r : RawSettings) : Option Nat :=
  firstFault [badMark r.enabled, (LineRate.ofCode r.bitRate).isNone, outside 5 200 r.timeout,
    decide (3 < r.mode), badMark r.polarity, badMark r.manual]

/-- Line settings as stored. -/
def storedSettings (r : RawSettings) : LineSettings :=
  { enabled := decide (r.enabled = 1), bitRate := (LineRate.ofCode r.bitRate).getD .r38400,
    timeout := r.timeout, mode := r.mode, activeLow := decide (r.polarity = 1),
    manual := decide (r.manual = 1) }

/-- The first failing item of the value check of a floor, counted from 0 (R131). -/
def floorFault (v : FloorValues) : Option Nat :=
  firstFault [outside 1 8 v.intervals, decide (v.minimums.length ≠ v.intervals),
    v.minimums.any (outside 20 1200), outside 300 2550 v.minCycle, outside 300 2550 v.maxCycle,
    decide (v.maxCycle < v.minCycle), decide (v.maxCycle < sumOf v.minimums)]

/-- The first bad field of WRITE-SITE (R145). -/
def siteFault (site line address group : Nat) : Option Nat :=
  firstFault [badSite site, decide (7 < line), outside 1 254 address, decide (Config.groups < group)]

end Sys2Proof.Machine
end

