-- ==== Sys2Proof/Machine/Library.lean ====
section
/-! DEFINITION. The Plan Library (chapter 2): references, the free list, the plan check, and the services of its
requests. -/

namespace Sys2Proof.Machine

/-! ### Asking for a resolver pass (R57) -/

/-- An event of R57 asks for a pass; while the part is not RUNNING or the civil clock is invalid it starts none
and is not remembered. -/
def askPass (p : PassAsk) (s : State) : State :=
  if s.isRunning && s.time.valid then
    { s with resolver := { s.resolver with owed := s.resolver.owed ++ [p] } }
  else s

/-! ### Slots and references -/

/-- A slot becomes FREE: it is emptied and its number joins the tail of the free list (R18, R19). -/
def freeSlot (n : Nat) (s : State) : State :=
  let t := s.setSlot n Slot.empty
  { t with library := { t.library with freeList := t.library.freeList ++ [n] } }

/-- A reference take (R34). -/
def takeReference (n : Nat) (s : State) : State :=
  s.setSlot n { s.slot n with refs := (s.slot n).refs + 1 }

/-- A reference release: a RETIRING slot whose count reaches 0 becomes FREE (R35). -/
def releaseReference (n : Nat) (s : State) : State :=
  let v := s.slot n
  if v.state = .retiring ∧ v.refs ≤ 1 then freeSlot n s
  else s.setSlot n { v with refs := v.refs - 1 }

/-- A POSTED slot leaves the library's view: RETIRING while it is referenced, FREE otherwise (R30, R33). -/
def retireSlot (n : Nat) (s : State) : State :=
  if (s.slot n).refs = 0 then freeSlot n s else s.setSlot n { s.slot n with state := .retiring }

/-- The slot is POSTED with a plan number. -/
def Slot.isPosted (v : Slot) (plan : Nat) : Bool :=
  decide (v.state = .posted) && v.header.any (fun h => h.plan == plan)

/-- The POSTED slot of a plan number (R29). -/
def postedSlot (s : State) (plan : Nat) : Option Nat :=
  (s.library.slots.find? (fun e => e.2.isPosted plan)).map (·.1)

/-- Another slot that is POSTED with the same plan number (R29). -/
def otherPosted (s : State) (n plan : Nat) : Option Nat :=
  (s.library.slots.find? (fun e => e.1 != n && e.2.isPosted plan)).map (·.1)

/-- The plan number of a slot's header, 0 when the header is absent. -/
def planOfSlot (s : State) (n : Nat) : Nat := ((s.slot n).header.map (·.plan)).getD 0

/-- The numbers of slots in a state. -/
def slotsInState (s : State) (st : SlotState) : List Nat :=
  (List.range Config.slots).filter (fun n => decide ((s.slot n).state = st))

/-! ### The plan check (R26 to R31) -/

/-- The lowest index at which an entry fails. -/
def firstEntry (es : List SiteEntry) (bad : SiteEntry → Bool) : Option Nat := es.findIdx? bad

/-- Some split is below its floor minimum (R28 check 7). -/
def belowFloor (splits minimums : List Nat) : Bool :=
  (List.zipWith (fun a f => decide (a < f)) splits minimums).any id

/-- Outcome of a plan check: passed, with the superseded slot, or the failing check and its entry index. -/
inductive CheckOutcome where
  | passed (superseded : Option Nat)
  | failed (check index : Nat)
deriving DecidableEq, Repr

/-- Checks 1 to 9 of Table 2-4, each over the whole record before the next (R26 to R28): the first that fails,
with the lowest entry index at which it fails. -/
def recordFault (s : State) (h : PlanHeader) (v : Slot) : Option (Nat × Nat) :=
  let es := v.recordEntries
  let floor (e : SiteEntry) : FloorValues :=
    (s.effectiveFloor e.site).getD { intervals := 0, minimums := [], minCycle := 0, maxCycle := 0 }
  let at_ (check : Nat) (o : Option Nat) : Option (Nat × Nat) := o.map (fun i => (check, i))
  (at_ 1 ((List.range h.count).find? (fun i => (Table.get none v.entries i).isNone)))
  <|> (at_ 2 (firstEntry es (fun e => (s.rosterEntry e.site).all (fun r => r.group != h.group))))
  <|> (at_ 3 (firstRepeat (es.map (·.site))))
  <|> (at_ 4 (firstEntry es (fun e => (s.effectiveFloor e.site).isNone)))
  <|> (at_ 5 (firstEntry es (fun e => e.splits.length != (floor e).intervals)))
  <|> (at_ 6 (firstEntry es (fun e => sumOf e.splits != h.cycle)))
  <|> (at_ 7 (firstEntry es (fun e => belowFloor e.splits (floor e).minimums)))
  <|> (at_ 8 (firstEntry es (fun e => outside (floor e).minCycle (floor e).maxCycle h.cycle)))
  <|> (at_ 9 (firstEntry es (fun e => decide (h.cycle ≤ e.offset))))

/-- The plan check of slot `n` (Table 2-4), with the supersede mark given. -/
def planCheck (s : State) (n : Nat) (supersede : Bool) : CheckOutcome :=
  match (s.slot n).header with
  | none => .failed 1 255
  | some h =>
    match recordFault s h (s.slot n) with
    | some (check, i) => .failed check i
    | none =>
      match otherPosted s n h.plan with
      | none => .passed none
      | some m => if supersede then .passed (some m) else .failed 10 255

/-- The check code of a record (R36). -/
def Slot.code (v : Slot) : CheckCode := crc16 v.recordBytes

/-- The slot as it becomes POSTED: places at indices of count or above emptied, check code computed (R30). -/
def Slot.posted (v : Slot) : Slot :=
  let count := (v.header.map (·.count)).getD 0
  let w := { v with entries := v.entries.filter (fun e => e.1 < count) }
  { w with state := .posted, checkCode := some w.code, supersede := false }

/-- The slot as a failed check leaves it (R31): FILLING, its record kept, mark dropped, check code absent. -/
def Slot.refilled (v : Slot) : Slot :=
  { v with state := .filling, checkCode := none, supersede := false }

/-- PLAN-CHECKED (R30, R31). -/
def raisePlanChecked (n plan result index : Nat) (code : Option CheckCode)
    (superseded : Option (Nat × SlotState)) (s : State) : State :=
  raise .planChecked
    ([.byte n, .byte plan, .code result, .byte index] ++ withPresence
      [opt (may code 0 (fun c => [.checkCode c])),
       sentinel [slotField (superseded.map (·.1))],
       opt (may (superseded.map (·.2)) .free (fun st => [.code st.code]))]) s

/-- A check fails (R31). -/
def failCheck (n check index : Nat) (s : State) : State :=
  raisePlanChecked n (planOfSlot s n) check index none none (s.setSlot n (s.slot n).refilled)

/-- A check passes (R30). -/
def passCheck (n : Nat) (superseded : Option Nat) (s : State) : State :=
  let s1 := s.setSlot n (s.slot n).posted
  let s2 := match superseded with
    | none => s1
    | some m => retireSlot m s1
  let s3 := raisePlanChecked n (planOfSlot s2 n) 0 255 (s2.slot n).checkCode
    (superseded.map (fun m => (m, (s2.slot m).state))) s2
  askPass .asked s3

/-- The plan checker begins on the head of the check queue (R24). -/
def planCheckStart (s : State) : State :=
  if s.library.checkQueue.isEmpty || s.library.checking then s
  else { s with library := { s.library with checking := true } }

/-- The check of the head of the check queue ends (R26); with no check under way nothing ends. -/
def planCheckEnd (s : State) : State :=
  match s.library.checking, s.library.checkQueue with
  | true, n :: rest =>
    let s1 := { s with library := { s.library with checkQueue := rest, checking := false } }
    match planCheck s n (s.slot n).supersede with
    | .passed superseded => passCheck n superseded s1
    | .failed check i => failCheck n check i s1
  | _, _ => s

/-! ### Services -/

/-- A refusal without result fields: R183 gives a refusal the fields that its owning rule names and no others. This is taken
to hold of an OUT-OF-RANGE too, whose entry in Table 10-1 says that the reply names the field, where the owning rule names
none (DEDUCED, assumption log 28). -/
def refuse (kind tag : Byte) (status : Status) (s : State) : State := answer kind tag status [] s

/-- TAKE-SLOT (R20). -/
def serveTakeSlot (tag : Byte) (s : State) : State :=
  match s.library.freeList with
  | [] => answer Kind.takeSlot tag .noSpace [.byte 255, .byte 0] s
  | n :: rest =>
    let s1 := { s with library := { s.library with freeList := rest } }
    answer Kind.takeSlot tag .ok [.byte n, .byte rest.length]
      (s1.setSlot n { Slot.empty with state := .filling })

/-- The outcome of a write to a slot that is not FILLING (R21), or none. -/
def writeRefusal (s : State) (n : Nat) : Option Status :=
  if Config.slots ≤ n then some .outOfRange
  else match (s.slot n).state with
    | .filling => none
    | .checking => some .busy
    | .free => some .wrongState
    | .posted => some .wrongState
    | .retiring => some .wrongState

/-- WRITE-PLAN-HEADER (R21, R22). -/
def serveWritePlanHeader (tag : Byte) (n : Nat) (h : RawHeader) (s : State) : State :=
  let kind := Kind.writePlanHeader
  match writeRefusal s n with
  | some st => refuse kind tag st s
  | none =>
    match headerFault h with
    | some place => answer kind tag .outOfRange [.named place] s
    | none =>
      answer kind tag (if headerClamped h then .adjusted else .ok) (storedHeader h).fields
        (s.setSlot n { s.slot n with header := some (storedHeader h) })

/-- Entries stored at consecutive indices. -/
def putEntries : Nat → List RawEntry → Table (Option SiteEntry) → Table (Option SiteEntry)
  | _, [], t => t
  | i, e :: r, t => putEntries (i + 1) r (Table.set none t i (some (storedEntry e)))

/-- WRITE-PLAN-SITES (R21, R23). The reply's range is the first index and the number of entries (DESIGN CHOICE,
assumption log 28). -/
def serveWritePlanSites (tag : Byte) (n first : Nat) (es : List RawEntry) (s : State) : State :=
  let kind := Kind.writePlanSites
  match writeRefusal s n with
  | some st => refuse kind tag st s
  | none =>
    if outside 1 8 es.length || decide (Config.entriesPerPlan < first + es.length) then
      answer kind tag .outOfRange [.byte 255] s
    else match es.findIdx? badEntry with
      | some j => answer kind tag .outOfRange [.byte (first + j)] s
      | none =>
        answer kind tag .ok [.byte first, .byte es.length]
          (s.setSlot n { s.slot n with entries := putEntries first es (s.slot n).entries })

/-- POST-PLAN (R25). -/
def servePostPlan (tag : Byte) (n mark : Nat) (s : State) : State :=
  let kind := Kind.postPlan
  if decide (Config.slots ≤ n) || badMark mark then refuse kind tag .outOfRange s
  else if s.storing then refuse kind tag .busy s
  else match (s.slot n).state with
    | .filling =>
      let s1 := s.setSlot n { s.slot n with state := .checking, supersede := decide (mark = 1) }
      answer kind tag .ok [.byte s.library.checkQueue.length]
        { s1 with library := { s1.library with checkQueue := s1.library.checkQueue ++ [n] } }
    | .checking => refuse kind tag .busy s
    | .free => refuse kind tag .wrongState s
    | .posted => refuse kind tag .wrongState s
    | .retiring => refuse kind tag .wrongState s

/-- A CHECKING slot's check ends at once (R32): its number leaves the check queue, and the checker is free when it
was checking that slot. -/
def dropCheck (n : Nat) (s : State) : State :=
  { s with library := { s.library with
      checkQueue := s.library.checkQueue.filter (· != n)
      checking := s.library.checking && decide (s.library.checkQueue.head? ≠ some n) } }

/-- WITHDRAW-PLAN (R32, R33). The reply carries the slot's state after the request. -/
def serveWithdrawPlan (tag : Byte) (n : Nat) (s : State) : State :=
  let kind := Kind.withdrawPlan
  let done (s' : State) : State := answer kind tag .ok [.code (s'.slot n).state.code] s'
  if Config.slots ≤ n then refuse kind tag .outOfRange s
  else match (s.slot n).state with
    | .free => answer kind tag .wrongState [.code SlotState.free.code] s
    | .filling => done (freeSlot n s)
    | .checking => done (freeSlot n (dropCheck n s))
    | .posted =>
      if s.storing then answer kind tag .busy [.code SlotState.posted.code] s
      else done (askPass .asked (retireSlot n s))
    | .retiring => answer kind tag .wrongState [.code SlotState.retiring.code] s

/-- The entry place `i` of a slot as READ-PLAN shows it: POSTED and RETIRING slots hold none at indices of count
or above (R30, R37). -/
def Slot.entryAt (v : Slot) (i : Nat) : Option SiteEntry := Table.get none v.entries i

/-- A site entry that fills the place of an absent one. -/
def SiteEntry.absent : SiteEntry := { site := 0, offset := 0, splits := [], modeOverride := some .best }

/-- READ-PLAN (R37; assumption log 19). -/
def serveReadPlan (tag : Byte) (n first number : Nat) (s : State) : State :=
  let kind := Kind.readPlan
  if decide (Config.slots ≤ n) || decide (8 < number)
      || decide (Config.entriesPerPlan < first + number) then refuse kind tag .outOfRange s
  else
    let v := s.slot n
    let mark := if v.state = .checking then some v.supersede else none
    answer kind tag .ok
      ([.code v.state.code, .byte v.refs] ++ withPresence
        ([opt (may v.checkCode 0 (fun c => [.checkCode c])), opt (may mark false (fun m => [.mark m])),
          opt (may v.header PlanHeader.absent PlanHeader.fields)]
        ++ (List.range number).map
          (fun i => opt (may (v.entryAt (first + i)) SiteEntry.absent SiteEntry.fields)))) s

/-- A slot's state is in a LIST-PLANS selection; an empty selection means all four states (R38, R202). -/
def inSelection (selection : Byte) : SlotState → Bool
  | .free => false
  | .filling => selection = 0 || selection.getLsbD 0
  | .checking => selection = 0 || selection.getLsbD 1
  | .posted => selection = 0 || selection.getLsbD 2
  | .retiring => selection = 0 || selection.getLsbD 3

/-- One line of LIST-PLANS (R38). -/
def listLine (s : State) (n : Nat) : List Field :=
  let v := s.slot n
  let part (f : PlanHeader → Field) := opt (may v.header PlanHeader.absent (fun h => [f h]))
  let place := if v.state = .checking then s.library.checkQueue.findIdx? (· == n) else none
  [.byte n, .code v.state.code] ++ withPresence
    [sentinel [.byte (planOfSlot s n)], part (fun h => .byte h.group), part (fun h => .length h.cycle),
     part (fun h => .byte h.cohortKey), sentinel [.byte ((v.header.map (·.count)).getD 0)],
     sentinel [.byte v.refs], opt (may v.checkCode 0 (fun c => [.checkCode c])),
     opt (may place 0 (fun i => [.byte i]))]

/-- LIST-PLANS (R38). -/
def serveListPlans (tag : Byte) (selection : Byte) (first number : Nat) (s : State) : State :=
  let kind := Kind.listPlans
  if decide (16 ≤ selection.toNat) || decide (95 < first) || outside 1 48 number
      || decide (Config.slots < first + number) then refuse kind tag .outOfRange s
  else
    let shown := ((List.range number).map (· + first)).filter
      (fun n => inSelection selection (s.slot n).state)
    answer kind tag .ok
      ([.byte s.library.freeList.length, slotField s.library.freeList.head?,
        .byte s.library.checkQueue.length] ++ counted shown (listLine s)) s

end Sys2Proof.Machine
end

