-- ==== Sys2Proof/Machine/FloorStore.lean ====
section
/-! DEFINITION. The Floor Store (chapter 7): entry states, the programmer, the lock, the commissioning window, the
effective floor table, and the services of its requests. -/

namespace Sys2Proof.Machine

/-! ### Entry states (R130) -/

/-- State of a floor entry (R130). -/
inductive FloorState where
  | blank
  | dirty
  | committed
  | failed
deriving DecidableEq, Repr

/-- Code of a floor entry state (Table 12-2). -/
def FloorState.code : FloorState → Nat
  | .blank => 0 | .dirty => 1 | .committed => 2 | .failed => 3

/-- The state of an entry, read from its stored parts (R130). -/
def FloorEntry.state (e : FloorEntry) : FloorState :=
  if e.failure then .failed
  else if e.commit then .committed
  else if e.image ≠ 0 then .dirty
  else .blank

/-- Outcome of a programming operation (Table 12-2). -/
inductive ProgramOutcome where
  | committed
  | conflict
  | unprogrammed
  | markFault
  | lockProgrammed
deriving DecidableEq, Repr

/-- Code of a programming outcome (Table 12-2). -/
def ProgramOutcome.code : ProgramOutcome → Nat
  | .committed => 0 | .conflict => 1 | .unprogrammed => 2 | .markFault => 3 | .lockProgrammed => 4

/-- The number of entries that read a state. -/
def entriesIn (s : State) (st : FloorState) : Nat :=
  countWhere (upTo Config.sites) (fun n => decide ((s.floorEntry n).state = st))

/-- The numbers of entries that read BLANK, DIRTY, COMMITTED and FAILED. -/
def entryCounts (s : State) : List Field :=
  [.total (entriesIn s .blank), .total (entriesIn s .dirty), .total (entriesIn s .committed),
   .total (entriesIn s .failed)]

/-! ### Programming a floor (R133 to R135) -/

/-- The state with the programmer replaced. -/
def State.setProgrammer (s : State) (p : Programmer) : State :=
  { s with floors := { s.floors with programmer := p } }

/-- The data step of R133: every bit of the image that is not deaf reads programmed. -/
def programData (stored image deaf : Image) : Image := stored ||| (image &&& ~~~deaf)

/-- An entry whose failure mark is programmed, and the outcome: MARK-FAULT when the mark does not take (R133). -/
def failEntry (e : FloorEntry) (takes : Bool) (outcome : ProgramOutcome) : FloorEntry × ProgramOutcome :=
  ({ e with failure := e.failure || takes }, if takes then outcome else .markFault)

/-- The steps of R133 on an entry: data, verify, commit. A commit mark that reads unprogrammed after its last attempt
and programmed later leaves the MARK-FAULT entry that reads COMMITTED (DEDUCED, assumption log 33). -/
def programEntry (e : FloorEntry) (image deaf : Image) (commit : CommitReading) (failureTakes : Bool) :
    FloorEntry × ProgramOutcome :=
  let d := { e with image := programData e.image image deaf }
  if d.image &&& ~~~image ≠ 0 then failEntry d failureTakes .conflict
  else if d.image ≠ image then failEntry d failureTakes .unprogrammed
  else match commit with
    | .takes => ({ d with commit := true }, .committed)
    | .late => failEntry { d with commit := true } failureTakes .markFault
    | .never => failEntry d failureTakes .markFault

/-- FLOOR-DONE for a floor entry (R134). -/
def raiseFloorDone (n : Nat) (outcome : ProgramOutcome) (requested : FloorValues) (s : State) : State :=
  raise .floorDone
    [.site n, .code outcome.code, .code (s.floorEntry n).state.code, .image requested.image,
     .image (s.floorEntry n).image, .mark s.floors.windowOpen] s

/-- FLOOR-DONE for the lock mark, with site number 0 (R138). -/
def raiseLockDone (outcome : ProgramOutcome) (s : State) : State :=
  raise .floorDone [.site 0, .code outcome.code, .code 0, .image 0, .image 0, .mark s.floors.windowOpen] s

/-- The end of a floor programming operation (R133, R134), by which its bits have landed and at which its marks do (DESIGN
CHOICE, assumption log 29); with none in progress nothing ends. -/
def endFloorProgramming (deaf : Image) (commit : CommitReading) (failureTakes : Bool) (s : State) : State :=
  match s.floors.programmer with
  | .floor n v =>
    let r := programEntry (s.floorEntry n) v.image deaf commit failureTakes
    raiseFloorDone n r.2 v ((s.setFloorEntry n r.1).setProgrammer .idle)
  | .idle => s
  | .lock => s

/-- The end of a lock programming operation (R138), at which the lock mark comes to read programmed: R138 does not say when
within the operation it does (DESIGN CHOICE, assumption log 29). With none in progress nothing ends. -/
def endLockProgramming (takes : Bool) (s : State) : State :=
  match s.floors.programmer with
  | .lock =>
    let s1 := { s with floors := { s.floors with
      lockMark := s.floors.lockMark || takes, programmer := .idle } }
    raiseLockDone (if s1.floors.lockMark then .lockProgrammed else .markFault) s1
  | .idle => s
  | .floor _ _ => s

/-- What a reset leaves of an entry that is being programmed (R135): bits of the new image only, the commit mark only
after a matching verify, and the failure mark where it had taken. Both marks can have taken: a commit mark that reads
unprogrammed after its last attempt is followed by the failure mark (R133), and R130 then reads FAILED. -/
def cutEntry (e : FloorEntry) (image : Image) (cut : ProgramCut) : FloorEntry :=
  let stored := e.image ||| (image &&& cut.bits)
  { image := stored
    commit := e.commit || (cut.commit && decide (stored = image))
    failure := e.failure || cut.failure }

/-- A reset ends the programming operation in progress where it stands (R135, R138), which the command's operand says
(DESIGN CHOICE, assumption log 12). -/
def cutProgramming (cut : ProgramCut) (s : State) : State :=
  match s.floors.programmer with
  | .floor n v => (s.setFloorEntry n (cutEntry (s.floorEntry n) v.image cut)).setProgrammer .idle
  | .lock =>
    { s with floors := { s.floors with
      lockMark := s.floors.lockMark || cut.lock, programmer := .idle } }
  | .idle => s

/-! ### The effective floor table (R136) -/

/-- The place of a site in the effective floor table as a restart builds it (R136). -/
def effectivePlace (e : FloorEntry) : Option FloorValues :=
  if e.state = .committed ∧ floorFault (Image.values e.image) = none then some (Image.values e.image) else none

/-- A COMMITTED entry whose values fail the value check is passed over (R136). -/
def passedOver (e : FloorEntry) : Bool :=
  decide (e.state = .committed) && (floorFault (Image.values e.image)).isSome

/-- The number of COMMITTED entries passed over. -/
def passedOverCount (s : State) : Nat := countWhere (upTo Config.sites) (fun n => passedOver (s.floorEntry n))

/-- The effective floor table and the lock-in-effect mark are built (R136). -/
def buildEffective (s : State) : State :=
  { s with floors := { s.floors with
      effective := s.floors.entries.filterMap
        (fun e => (effectivePlace e.2).map (fun v => (e.1, some v)))
      lockInEffect := s.floors.lockMark } }

/-! ### The commissioning window (R139 to R141) -/

/-- The window becomes CLOSED and its count 0 (R140). -/
def closeWindow (s : State) : State :=
  { s with floors := { s.floors with windowOpen := false, windowCount := 0 } }

/-- A ds tick reaches the window: its count falls by one, and it closes at 0 (R139, R140). -/
def windowTick (s : State) : State :=
  if s.floors.windowOpen then
    if s.floors.windowCount ≤ 1 then closeWindow s
    else { s with floors := { s.floors with windowCount := s.floors.windowCount - 1 } }
  else s

/-- The tick that brings the window count to 0 reaches the Floor Store (R140, assumption log 9). -/
def expireWindow (s : State) : State :=
  if s.floors.windowOpen ∧ s.floors.windowCount ≤ 1 then closeWindow s else s

/-- COMMISSION_EN is deasserted: an OPEN window closes (R141). -/
def deassertKey (s : State) : State :=
  closeWindow { s with pins := { s.pins with commissionEn := false } }

/-- The level of COMMISSION_EN as a command comes (R141; DESIGN CHOICE, assumption log 11). -/
def readKey (asserted : Bool) (s : State) : State :=
  if asserted then { s with pins := { s.pins with commissionEn := true } } else deassertKey s

/-- Bits of the image under programming that the programmer has got programmed so far (R133, R142; DESIGN CHOICE,
assumption log 29). -/
def landBits (bits : Image) (s : State) : State :=
  match s.floors.programmer with
  | .floor n v =>
    let e := s.floorEntry n
    s.setFloorEntry n { e with image := e.image ||| (v.image &&& bits) }
  | .idle => s
  | .lock => s

/-- What stands beside a command that may serve a request: the level of COMMISSION_EN, and how far the programmer has
come. -/
def look (seen : Seen) (s : State) : State := landBits seen.programmed (readKey seen.key s)

/-! ### Services -/

/-- OPEN-COMMISSIONING (R139). The reply's window counts are two bytes, a type Table 12-1 does not give them (DESIGN
CHOICE, assumption log 17). -/
def serveOpenCommissioning (tag : Byte) (s : State) : State :=
  let kind := Kind.openCommissioning
  if s.floors.lockInEffect then refuse kind tag .locked s
  else if s.pins.commissionEn = false then refuse kind tag .notCommissioning s
  else answer kind tag .ok
    [.code (markCode s.floors.windowOpen), .length s.floors.windowCount, .length Config.windowTicks]
    { s with floors := { s.floors with windowOpen := true, windowCount := Config.windowTicks } }

/-- The floor values that COMMISSION-FLOOR carries. -/
def floorCarried (intervals minCycle maxCycle : Nat) (minimums : List Nat) : FloorValues :=
  { intervals := intervals, minimums := minimums, minCycle := minCycle, maxCycle := maxCycle }

/-- COMMISSION-FLOOR (R132). A refusal names the site number (0) or the failing item of R131 (1 to 7). -/
def serveCommissionFloor (tag : Byte) (n intervals minCycle maxCycle : Nat) (minimums : List Nat)
    (s : State) : State :=
  let kind := Kind.commissionFloor
  let v := floorCarried intervals minCycle maxCycle minimums
  if s.floors.lockInEffect then refuse kind tag .locked s
  else if s.floors.windowOpen = false then refuse kind tag .notCommissioning s
  else if badSite n then answer kind tag .outOfRange [.named 0] s
  else match floorFault v with
    | some item => answer kind tag .outOfRange [.named (item + 1)] s
    | none =>
      if s.floors.programmer ≠ .idle then refuse kind tag .busy s
      else
        let st := (s.floorEntry n).state
        if st = .committed ∨ st = .failed then answer kind tag .wrongState [.code st.code] s
        else answer kind tag .ok [.site n, .code st.code] (s.setProgrammer (.floor n v))

/-- LOCK-FLOORS (R137). While the lock mark is being programmed it reads unprogrammed, so that case 5 and not case 4 applies
(DESIGN CHOICE, assumption log 29). -/
def serveLockFloors (tag : Byte) (s : State) : State :=
  let kind := Kind.lockFloors
  if s.floors.lockInEffect then refuse kind tag .locked s
  else if s.floors.windowOpen = false then refuse kind tag .notCommissioning s
  else if s.floors.lockMark then refuse kind tag .wrongState s
  else if s.floors.programmer ≠ .idle then refuse kind tag .busy s
  else answer kind tag .ok (entryCounts s) (s.setProgrammer .lock)

/-- The floor entry that is being programmed, or none. -/
def Programmer.site : Programmer → Option Nat
  | .floor n _ => some n
  | .idle => none
  | .lock => none

/-- Code of the programmer's state (Table 12-2). -/
def Programmer.code : Programmer → Nat
  | .idle => 0
  | .floor _ _ => 1
  | .lock => 2

/-- The stored values of an entry, absent when it is BLANK (R142). -/
def FloorEntry.stored (e : FloorEntry) : Option FloorValues :=
  if e.state = .blank then none else some (Image.values e.image)

/-- The reply of READ-FLOOR for one site (R142). -/
def floorReply (s : State) (n : Nat) : List Field :=
  let e := s.floorEntry n
  let effective := s.effectiveFloor n
  [.code e.state.code, .mark (decide (s.floors.programmer.site = some n))] ++ withPresence
    [opt (may (e.stored.map (fun _ => e.image)) 0 (fun b => [.image b])),
     opt (may (effective.map FloorValues.image) 0 (fun b => [.image b])),
     opt (always [.mark (decide (e.stored ≠ effective))])]

/-- The summary of READ-FLOOR (R142). The site number is an optional field, and the numbers of entries and places and
the window count are two bytes (R204; DESIGN CHOICE, assumption log 17). The lock mark under programming reads unprogrammed
(DESIGN CHOICE, assumption log 29). -/
def floorSummary (s : State) : List Field :=
  entryCounts s ++ [.total s.floors.effective.length, .mark s.floors.lockMark, .mark s.floors.lockInEffect,
    .code (markCode s.floors.windowOpen), .length s.floors.windowCount, .mark s.pins.commissionEn,
    .code s.floors.programmer.code]
    ++ withPresence [opt (may s.floors.programmer.site 0 (fun n => [.site n]))]

/-- READ-FLOOR (R142). -/
def serveReadFloor (tag : Byte) (n : Nat) (s : State) : State :=
  let kind := Kind.readFloor
  if Config.sites < n then refuse kind tag .outOfRange s
  else answer kind tag .ok (if n = 0 then floorSummary s else floorReply s n) s

end Sys2Proof.Machine
end

