-- ==== Sys2Proof/Machine/Settling.lean ====
section
/-! DEFINITION. What the Group Clock Unit is told of its members (R78, R79, R108): the in-step count, the observed
marks and the settle judgement; and the site tracker's changes of state (R110). -/

namespace Sys2Proof.Machine

/-- A site counts in its group's in-step count: IN-STEP with its hold mark clear (R78). -/
def countsInStep (s : State) (n : Nat) : Bool :=
  decide ((s.tracker n).state = .inStep) && !s.held n

/-- A member is eligible for the settle judgement: coordinated with its hold mark clear (R79). -/
def eligible (s : State) (n : Nat) : Bool := (s.tracker n).state.isCoordinated && !s.held n

/-- The eligible members of a group. -/
def eligibleMembers (s : State) (g : Nat) : List Nat := (s.membersOf g).filter (eligible s)

/-- The group is settled: at least one eligible member, and every one observed (R79). -/
def isSettled (s : State) (g : Nat) : Bool :=
  let l := eligibleMembers s g
  !l.isEmpty && l.all (fun n => (s.group g).observed.contains n)

/-- The settle judgement (R79). -/
def judgeSettled (g : Nat) (s : State) : State :=
  let r := s.group g
  if r.settlePending && isSettled s g then
    let since := r.lastSwitch.getD 0
    raise .groupSettled
      [.byte g, slotField (r.reference.map (·.slot)), .byte ((r.reference.map (·.plan)).getD 0),
       .count since, .count s.now, .signed (sdiff s.now since), .byte (eligibleMembers s g).length]
      (s.setGroup g { r with settlePending := false })
  else s

/-- The in-step count after a member's part in it changes (R78). -/
def adjustInStep (before after : Bool) (n : Nat) : Nat :=
  match before, after with
  | false, true => n + 1
  | true, false => n - 1
  | false, false => n
  | true, true => n

/-- The GCU is told that a member's part in the in-step count and its eligibility were as given before, and are now
as they stand (R78, R79, R108). -/
def tellGroup (n : Nat) (wasInStep wasEligible : Bool) (s : State) : State :=
  let g := s.groupOf n
  if g = 0 then s
  else
    let r := s.group g
    let s1 := s.setGroup g { r with inStep := adjustInStep wasInStep (countsInStep s n) r.inStep }
    if wasEligible = eligible s n then s1 else judgeSettled g s1

/-- A change of a site's tracker state or hold mark, of which the GCU is told. -/
def withTold (n : Nat) (f : State → State) (s : State) : State :=
  tellGroup n (countsInStep s n) (eligible s n) (f s)

/-- An IN-STEP classification at a zero at or after the group's last switch instant sets the member's observed mark
(R79). -/
def observe (n : Nat) (zk : Count) (s : State) : State :=
  let g := s.groupOf n
  let r := s.group g
  if g ≠ 0 ∧ r.lastSwitch.any (fun t => atOrAfter zk t) ∧ ¬ r.observed.contains n then
    judgeSettled g (s.setGroup g { r with observed := insertBy id n r.observed })
  else s

/-- Cause of SITE-STATE (R110). -/
inductive StateCause where
  | report
  | misses
  | lineDisabled
  | target
  | flag
  | holdReleased
  | roster
deriving DecidableEq, Repr

/-- Cause code (Table 12-2). -/
def StateCause.code : StateCause → Nat
  | .report => 0 | .misses => 1 | .lineDisabled => 2 | .target => 3 | .flag => 4 | .holdReleased => 5
  | .roster => 6

/-- A state that makes any change into it or out of it a notice. -/
def TrackerState.isOfflineOrFree (t : TrackerState) : Bool := !t.isCoordinated

/-- The change raises SITE-STATE (R110): OFFLINE or FREE is its old or new state, or it enters ACQUIRING from
SEEKING or IN-STEP. -/
def noticeable (old new : TrackerState) : Bool :=
  decide (old ≠ new) && (old.isOfflineOrFree || new.isOfflineOrFree || decide (new = .acquiring))

/-- SITE-STATE for a site of group `g` (R110). -/
def raiseSiteState (n g : Nat) (old new : TrackerState) (cause : StateCause) (s : State) : State :=
  if noticeable old new then
    raise .siteState [.site n, .byte g, .code old.code, .code new.code, .code cause.code, .count s.now,
      .mark (s.held n)] s
  else s

/-- The site's tracker record with a new state. -/
def setTrackerState (n : Nat) (st : TrackerState) (s : State) : State :=
  s.setTracker n { s.tracker n with state := st }

/-- The site's tracker record with its anchor mark as given (R90). -/
def setAnchor (n : Nat) (b : Bool) (s : State) : State :=
  s.setTracker n { s.tracker n with anchor := b }

/-- A site's tracker state changes: the GCU is told (R108), and SITE-STATE is raised where R110 says so. A GROUP-SETTLED
that this causes is raised before it (R187; DESIGN CHOICE, assumption log 37). -/
def changeState (n : Nat) (st : TrackerState) (cause : StateCause) (s : State) : State :=
  raiseSiteState n (s.groupOf n) (s.tracker n).state st cause (withTold n (setTrackerState n st) s)

/-- A site enters OFFLINE: its anchor mark is cleared (R107). -/
def goOffline (n : Nat) (cause : StateCause) (s : State) : State :=
  changeState n .offline cause (setAnchor n false s)

end Sys2Proof.Machine
end

