-- ==== Sys2Proof/Machine/Orders.lean ====
section
/-! DEFINITION. Targets and the order computation of the Site Tracking Unit (R86, R87, R92, R94 to R104). -/

namespace Sys2Proof.Machine

/-! ### Targets (R86, R87) -/

/-- The site entry of a plan that lists a site (R86). -/
def Slot.entryFor (v : Slot) (n : Nat) : Option SiteEntry := v.recordEntries.find? (fun e => e.site == n)

/-- What the plan of a slot asks of a site, with the group's epoch and cycle length; FREE when the plan does not
list the site (R86). -/
def slotTarget (s : State) (slot : Nat) (instant epoch : Count) (cycle n : Nat) : AnyTarget :=
  match (s.slot slot).header, (s.slot slot).entryFor n with
  | some h, some e => .coordinated
      { id := { slot := slot, instant := instant }, plan := h.plan, epoch := epoch, cycle := cycle,
        offset := e.offset, splits := e.splits, modeOverride := e.modeOverride, mode := h.mode,
        shorten := h.shorten, lengthen := h.lengthen, window := h.window, floor := s.effectiveFloor n }
  | _, _ => .free

/-- The current target of a site (R86). -/
def currentTarget (s : State) (n : Nat) : AnyTarget :=
  let g := s.groupOf n
  if g = 0 then .free
  else match (s.group g).reference with
    | none => .free
    | some r => slotTarget s r.slot ((s.group g).lastSwitch.getD r.epoch) r.epoch r.cycle n

/-- The pending target of a site, under a pending switch of its group (R86). -/
def pendingTarget (s : State) (p : PendingSwitch) (n : Nat) : AnyTarget :=
  match p.target with
  | .free => .free
  | .slot k => slotTarget s k p.instant p.instant (((s.slot k).header.map (·.cycle)).getD 0) n

/-- The target in force for a site at a count: the first case of R87 that applies. -/
def targetInForce (s : State) (n : Nat) (t : Count) : AnyTarget :=
  let g := s.groupOf n
  let r := s.group g
  if g = 0 ∨ r.state = .empty then .free
  else match r.pending.filter (fun p => atOrAfter t p.instant) with
    | some p => pendingTarget s p n
    | none =>
      match r.lastSwitch.filter (fun l => !atOrAfter t l), (s.tracker n).previous with
      | some _, some p => p
      | _, _ => currentTarget s n

/-- A target's identity, none for FREE (R86). -/
def AnyTarget.id : AnyTarget → Option TargetId
  | .free => none
  | .coordinated t => some t.id

/-- A target's cycle length, none for FREE. -/
def AnyTarget.cycle : AnyTarget → Option Nat
  | .free => none
  | .coordinated t => some t.cycle

/-- The site target of a target, none for FREE. -/
def AnyTarget.plan : AnyTarget → Option SiteTarget
  | .free => none
  | .coordinated t => some t

/-- The target is FREE. -/
def AnyTarget.isFree : AnyTarget → Bool
  | .free => true
  | .coordinated _ => false

/-- The lag of a zero against a target: (Z − E − O) mod C (R92, R96). -/
def lagOf (t : SiteTarget) (z : Count) : Nat :=
  ((sdiff z t.epoch - (t.offset : Int)) % (t.cycle : Int)).toNat

/-- IN-STEP when the smaller of the lag and C minus the lag is W or less, SEEKING otherwise (R92). -/
def classify (t : SiteTarget) (lag : Nat) : TrackerState :=
  if min lag (t.cycle - lag) ≤ t.window then .inStep else .seeking

/-! ### The computation (R94 to R100) -/

/-- Lag and needs at a predicted zero (R96). -/
def needsAt (t : SiteTarget) (zp : Count) : Needs :=
  let lag := lagOf t zp
  { lag := lag, shortenNeed := lag, lengthenNeed := if lag = 0 then 0 else t.cycle - lag }

/-- The lag is within the deadband of 1 ds (R96). -/
def Needs.withinDeadband (w : Needs) : Bool :=
  decide (w.lag = 0) || decide (min w.shortenNeed w.lengthenNeed ≤ 1)

/-- The excess of each non-coordinated interval over its floor minimum (R97); none without a floor. -/
def excesses (t : SiteTarget) : List Nat :=
  match t.floor with
  | none => []
  | some f => List.zipWith (· - ·) t.splits.tail f.minimums.tail

/-- The correction mode in use: the override when present (R97). -/
def SiteTarget.modeInUse (t : SiteTarget) : CorrMode := t.modeOverride.getD t.mode

/-- Smax of R97, 0 in mode LENGTHEN, and 0 without a floor (DESIGN CHOICE, assumption log 24). -/
def smaxOf (t : SiteTarget) : Nat :=
  match t.floor, t.modeInUse with
  | none, _ => 0
  | some _, .lengthen => 0
  | some f, _ => min (t.cycle * t.shorten / 100) (min (sumOf (excesses t)) (t.cycle - f.minCycle))

/-- Lmax of R97, 0 in mode SHORTEN. -/
def lmaxOf (t : SiteTarget) : Nat :=
  match t.floor, t.modeInUse with
  | none, _ => 0
  | some _, .shorten => 0
  | some f, _ => min (t.cycle * t.lengthen / 100) (f.maxCycle - t.cycle)

/-- The number of cycles that a need takes at a limit, unbounded when the limit is 0 (R98). -/
def cyclesFor (need limit : Nat) : Option Nat := if limit = 0 then none else some (ceilDiv need limit)

/-- The limits and cycle counts of one computation (R97, R98). -/
def limitsFor (t : SiteTarget) (w : Needs) : Limits :=
  { smax := smaxOf t, lmax := lmaxOf t, shortenCycles := cyclesFor w.shortenNeed (smaxOf t),
    lengthenCycles := cyclesFor w.lengthenNeed (lmaxOf t) }

/-- The direction of R98: an unbounded count loses to any bounded one, a tie goes to lengthening, and two
unbounded counts block the seek (none). -/
def directionOf (l : Limits) : Option OrderKind :=
  match l.shortenCycles, l.lengthenCycles with
  | none, none => none
  | some _, none => some .shortened
  | none, some _ => some .lengthened
  | some a, some b => if a < b then some .shortened else some .lengthened

/-- The splits of a LENGTHENED order: interval 0 takes the whole correction (R99). -/
def lengthenedSplits (splits : List Nat) (d : Nat) : List Nat :=
  match splits with
  | [] => []
  | a :: r => (a + d) :: r

/-- How many intervals come before interval `i` in the order of largest remainder, the lower index first among
equals (R100 step 3). -/
def remainderRank (q : List Nat) (i : Nat) : Nat :=
  countWhere (List.range q.length)
    (fun j => decide (q.getD i 0 < q.getD j 0) || (decide (q.getD j 0 = q.getD i 0) && decide (j < i)))

/-- The ds that each non-coordinated interval loses when `d` is shared out over the excesses by largest remainder
(R100). -/
def removals (d : Nat) (xs : List Nat) : List Nat :=
  let total := sumOf xs
  let base := xs.map (fun x => d * x / total)
  let q := xs.map (fun x => d * x % total)
  let rest := d - sumOf base
  (List.range xs.length).map (fun i =>
    base.getD i 0 + (if q.getD i 0 ≠ 0 ∧ remainderRank q i < rest then 1 else 0))

/-- The splits of a SHORTENED order: interval 0 is kept (R100). -/
def shortenedSplits (splits xs : List Nat) (d : Nat) : List Nat :=
  match splits with
  | [] => []
  | a :: r => a :: List.zipWith (· - ·) r (removals d xs)

/-- What a computation decides: the order's kind, length, splits and correction, and the record of the computation
but for λ_obs. -/
structure Decision where
  kind : OrderKind
  length : Option Nat
  splits : List Nat
  correction : Nat
  needs : Option Needs
  limits : Option Limits
  reason : NominalReason
deriving DecidableEq, Repr

/-- A FREE order (R95 step 1). -/
def Decision.free : Decision :=
  { kind := .free, length := none, splits := [], correction := 0, needs := none, limits := none,
    reason := .nothing }

/-- A NOMINAL order of a target: L = C and splits S (R95, R96). -/
def nominal (t : SiteTarget) (w : Needs) (l : Option Limits) (reason : NominalReason) : Decision :=
  { kind := .nominal, length := some t.cycle, splits := t.splits, correction := 0, needs := some w,
    limits := l, reason := reason }

/-- An order corrected in the direction chosen, or NOMINAL when the seek is blocked (R98 to R100). -/
def corrected (t : SiteTarget) (w : Needs) : Decision :=
  let l := limitsFor t w
  match directionOf l with
  | none => nominal t w (some l) .blocked
  | some .shortened =>
    let d := min w.shortenNeed l.smax
    { kind := .shortened, length := some (t.cycle - d), splits := shortenedSplits t.splits (excesses t) d,
      correction := d, needs := some w, limits := some l, reason := .nothing }
  | some _ =>
    let d := min w.lengthenNeed l.lmax
    { kind := .lengthened, length := some (t.cycle + d), splits := lengthenedSplits t.splits d,
      correction := d, needs := some w, limits := some l, reason := .nothing }

/-- The decision of R95 to R100 for an applying target and a predicted zero. -/
def decideOrder (target : AnyTarget) (zp : Count) (held blocking : Bool) : Decision :=
  match target with
  | .free => .free
  | .coordinated t =>
    let w := needsAt t zp
    if blocking then nominal t w none .disturbed
    else if held then nominal t w none .held
    else if w.withinDeadband then nominal t w none .nominalLag
    else corrected t w

/-! ### Issue (R101, R102) -/

/-- The ring with an order at its newest end; the oldest of four is dropped first (R85). -/
def pushOrder (ring : List Order) (o : Order) : List Order :=
  (if 4 ≤ ring.length then ring.tail else ring) ++ [o]

/-- The order of a decision, under the site's next sequence number (R101 steps 1 and 2). -/
def orderOf (d : Decision) (sequence : Byte) (target : Option TargetId) (basis : Option Basis)
    (cause : OrderCause) : Order :=
  { sequence := sequence, kind := d.kind, length := d.length, splits := d.splits,
    correction := d.correction, target := target, basis := basis, cause := cause }

/-- The record of a computation (R101 step 5). -/
def computationOf (d : Decision) (lagObserved : Option Nat) : Computation :=
  { lagObserved := lagObserved, needs := d.needs, limits := d.limits, kind := d.kind,
    correction := d.correction, reason := d.reason }

/-- An order is issued (R101): it takes the next sequence number, joins the ring and fills the pending-order slot
of the site's link record, and the computation is stored. -/
def issue (n : Nat) (d : Decision) (target : Option TargetId) (basis : Option Basis) (cause : OrderCause)
    (lagObserved : Option Nat) (s : State) : State :=
  let t := s.tracker n
  let o := orderOf d t.nextSequence target basis cause
  let s1 := s.setTracker n { t with
    nextSequence := t.nextSequence + 1, ring := pushOrder t.ring o,
    computation := some (computationOf d lagObserved) }
  s1.setLinkOf n { s1.linkOf n with pendingOrder := some o }

/-- The seek-blocked mark after a computation (R102; a FREE target clears it: DEDUCED, assumption log 16). -/
def blockedMark (mark : Option TargetId) (target : Option TargetId) (d : Decision) : Option TargetId :=
  if d.reason = .blocked then target
  else if mark = target ∧ d.kind ≠ .shortened ∧ d.kind ≠ .lengthened then mark
  else none

/-- SEEK-BLOCKED (R102). -/
def raiseSeekBlocked (n : Nat) (t : SiteTarget) (w : Needs) (s : State) : State :=
  let f := t.floor.getD { intervals := 0, minimums := [], minCycle := 0, maxCycle := 0 }
  raise .seekBlocked
    [.site n, .byte (s.groupOf n), .byte t.id.slot, .byte t.plan, .length w.lag, .length w.shortenNeed,
     .length w.lengthenNeed, .code t.modeInUse.code, .byte t.shorten, .byte t.lengthen,
     .length (sumOf (excesses t)), .signed ((t.cycle : Int) - (f.minCycle : Int)),
     .signed ((f.maxCycle : Int) - (t.cycle : Int))] s

/-- The seek-blocked mark is kept by R102, and SEEK-BLOCKED is raised when the seek is newly blocked. -/
def noteBlocked (n : Nat) (target : AnyTarget) (d : Decision) (s : State) : State :=
  let mark := (s.tracker n).seekBlocked
  let s1 := s.setTracker n { s.tracker n with seekBlocked := blockedMark mark target.id d }
  match target, d.needs with
  | .coordinated t, some w =>
    if d.reason = .blocked ∧ mark ≠ some t.id then raiseSeekBlocked n t w s1 else s1
  | _, _ => s1

/-- The order computation for a basis (R95 to R102): decided against the target in force at Zp and issued. -/
def compute (n : Nat) (basis : Basis) (blocking : Bool) (cause : OrderCause) (lagObserved : Option Nat)
    (s : State) : State :=
  let target := targetInForce s n basis.zp
  let d := decideOrder target basis.zp (s.held n) blocking
  issue n d target.id (some basis) cause lagObserved (noteBlocked n target d s)

/-- The reference length at a zero: C of the target in force there, or of the current target when that is FREE
(R94). -/
def referenceLength (s : State) (n : Nat) (zk : Count) : Nat :=
  ((targetInForce s n zk).cycle.getD ((currentTarget s n).cycle.getD 0))

/-- The order in a ring with a sequence number (R85). -/
def findOrder (ring : List Order) (sequence : Option Byte) : Option Order :=
  ring.find? (fun o => decide (some o.sequence = sequence))

/-- The basis at a zero with the current cycle length given: Zp = Z_k + L_k (R94). -/
def basisAt (zk : Count) (lk : Nat) : Basis := { zk := zk, lk := lk, zp := later zk lk }

/-- L_k of a cause ZERO computation: the length of the order that the report names as running, or the reference
length (R94). -/
def currentLength (s : State) (n : Nat) (zk : Count) (running : Option Byte) : Nat :=
  ((findOrder (s.tracker n).ring running).bind (·.length)).getD (referenceLength s n zk)

/-! ### Changes of target (R103, R104) -/

/-- The newest order of the ring is FREE. -/
def newestIsFree (t : Tracker) : Bool := t.ring.getLast?.any (fun o => decide (o.kind = .free))

/-- A FREEING order: a FREE order with no basis, unless the newest order is already FREE (R104). It leaves a last
computation of kind FREE, and the seek-blocked mark as it is: R102 speaks of a computation for a target, and this order is
issued without one (DESIGN CHOICE, assumption log 16). -/
def issueFreeing (n : Nat) (s : State) : State :=
  if newestIsFree (s.tracker n) then s else issue n .free none none .freeing none s

/-- A member's unacknowledged pending order is recomputed from the basis of the newest order in its ring (R103).
λ_obs of the record stays that of the zero (DEDUCED, assumption log 16). -/
def recompute (n : Nat) (s : State) : State :=
  let t := s.tracker n
  if t.state.isCoordinated && (s.linkOf n).pendingOrder.isSome then
    match t.ring.getLast?.bind (·.basis) with
    | none => s
    | some b =>
      compute n b (t.lastReport.any (·.blocking)) .recompute (t.computation.bind (·.lagObserved)) s
  else s

/-- A change of a group's switch reaches the STU (R103), which takes the members in rising site number (DESIGN CHOICE,
assumption log 46). -/
def recomputeMembers (g : Nat) (s : State) : State := forEach (s.membersOf g) recompute s

/-- A member's state is evaluated against its new current target (R104 step 2). -/
def evaluateTarget (n : Nat) (s : State) : State :=
  let st := (s.tracker n).state
  let free := (currentTarget s n).isFree
  if st = .free ∧ free = false then changeState n .acquiring .target (setAnchor n false s)
  else if st.isCoordinated ∧ free = true then issueFreeing n (changeState n .free .target s)
  else s

/-- One member at a switch taken (R104): its target before the switch becomes its previous target, and its state is
evaluated (DEDUCED, assumption log 15). -/
def followSwitch (m : Nat × AnyTarget) (s : State) : State :=
  evaluateTarget m.1 (s.setTracker m.1 { s.tracker m.1 with previous := some m.2 })

end Sys2Proof.Machine
end

