-- ==== Sys2Proof/Machine/Groups.lean ====
section
/-! DEFINITION. The Group Clock Unit (chapter 4): the reference clock, switches opened, taken, retargeted and
cancelled, membership, and GROUP-STATUS. -/

namespace Sys2Proof.Machine

/-! ### The reference clock (R65, R66, R68) -/

/-- The master position at a count (R65). -/
def masterPosition (r : Reference) (t : Count) : Nat := (sdiff t r.epoch % (r.cycle : Int)).toNat

/-- The own next zero of a group at T0, as ds after T0 (R68). -/
def untilNextZero (r : GroupRecord) (t0 : Count) : Nat :=
  match r.reference with
  | none => 0
  | some c => if masterPosition c t0 = 0 then 0 else c.cycle - masterPosition c t0

/-- A group's epoch is due for renewal at a count: a master zero at least 16,777,216 ds after E (R66). -/
def renewalDue (r : GroupRecord) (t : Count) : Bool :=
  r.reference.any (fun c => decide (masterPosition c t = 0)
    && decide ((Config.renewalAge : Int) ≤ sdiff t c.epoch))

/-- Epoch renewal of a group, where it is due (R66): E becomes the present count, in the group record and in the
resume record (R82). -/
def renewEpoch (g : Nat) (s : State) : State :=
  let r := s.group g
  if renewalDue r s.now then
    let s1 := s.setGroup g { r with reference := r.reference.map (fun c => { c with epoch := s.now }) }
    s1.setResume g { s1.resumeOf g with epoch := s.now }
  else s

/-! ### Taking a switch (R70, R71, R80) -/

/-- Slot and plan number of a target in a notice: 255 and 0 for FREE (R204). -/
def targetFields (r : Option Reference) : List Field :=
  [slotField (r.map (·.slot)), .byte ((r.map (·.plan)).getD 0)]

/-- SWITCH-DONE (R80). -/
def raiseSwitchDone (g : Nat) (old new : Option Reference) (opening : Count) (immediate : Bool)
    (cohort : List Nat) (s : State) : State :=
  raise .switchDone
    ([.byte g] ++ targetFields old ++ targetFields new ++ [.mark immediate] ++ withPresence
      [opt (may (new.map (·.epoch)) 0 (fun e => [.count e])),
       opt (may (new.map (·.cycle)) 0 (fun c => [.length c])),
       opt (always [.count opening]), opt (!cohort.isEmpty, counted cohort (fun k => [.byte k]))]) s

/-- The reference that a switch to a target gives at its instant (R70 step 2, R71). -/
def referenceAt (s : State) (target : Target) (ts : Count) : Option Reference :=
  match target with
  | .free => none
  | .slot k =>
    some { slot := k, plan := planOfSlot s k, epoch := ts, cycle := ((s.slot k).header.map (·.cycle)).getD 0 }

/-- The resume record of a group that runs a reference (R82). -/
def resumeFor (s : State) : Option Reference → ResumeRecord
  | none => ResumeRecord.free
  | some r => { plan := r.plan, checkCode := (s.slot r.slot).checkCode, cycle := r.cycle, epoch := r.epoch }

/-- The group's reference on its current slot, if it holds one, is released. -/
def releaseCurrent (r : Option Reference) (s : State) : State :=
  match r with
  | none => s
  | some c => releaseReference c.slot s

/-- The members of a group in rising site number (DESIGN CHOICE, assumption log 46) with their current targets (R104
step 1). -/
def memberTargets (s : State) (g : Nat) : List (Nat × AnyTarget) :=
  (s.membersOf g).map (fun n => (n, currentTarget s n))

/-- Group `g` takes a switch (R70, R71), pending or, with `immediate`, at once (R69). The steps are those of R70 in
their order, then the recomputations of R103 and the evaluations of R104. Each takes the members in rising site number,
which neither rule orders (DESIGN CHOICE, assumption log 46). -/
def takeSwitch (g : Nat) (p : PendingSwitch) (immediate : Bool) (s : State) : State :=
  let r := s.group g
  let before := memberTargets s g
  let s1 := releaseCurrent r.reference s
  let new := referenceAt s1 p.target p.instant
  let s2 := s1.setGroup g { r with
    reference := new, pending := none, cohort := [], lastSwitch := some p.instant, observed := [],
    settlePending := new.isSome }
  let s3 := s2.setResume g (resumeFor s2 new)
  let s4 := raiseSwitchDone g r.reference new p.opening immediate r.cohort s3
  forEach before followSwitch (recomputeMembers g s4)

/-- The pending switch of a group, taken if the present count equals its Ts (R70). -/
def takeIfDue (g : Nat) (s : State) : State :=
  match (s.group g).pending with
  | none => s
  | some p => if p.instant = s.now then takeSwitch g p false s else s

/-! ### Switch requests (R67, R69, R73, R74, R75) -/

/-- A switch request of a resolver pass (R60): group, target, T0, the target plan's C and cohort key (0 for FREE),
and its cohort, as the list of member groups, empty for none. -/
structure SwitchRequest where
  group : Nat
  target : Target
  t0 : Count
  cycle : Nat
  key : Nat
  cohort : List Nat
deriving DecidableEq, Repr

/-- The reference on a pending slot is taken (R69, R73). -/
def takeTarget (t : Target) (s : State) : State :=
  match t with
  | .free => s
  | .slot k => takeReference k s

/-- The reference on a pending slot is released (R73, R74, R77). -/
def releaseTarget (t : Target) (s : State) : State :=
  match t with
  | .free => s
  | .slot k => releaseReference k s

/-- A group leaves its cohort: its number goes from the cohort field of every other member (R75). -/
def leaveCohort (g : Nat) (s : State) : State :=
  let others := (s.group g).cohort
  let s1 := s.setGroup g { s.group g with cohort := [] }
  forEach others (fun k t => t.setGroup k { t.group k with cohort := (t.group k).cohort.filter (· != g) }) s1

/-- The current target of a group as a switch target (R67). -/
def GroupRecord.current (r : GroupRecord) : Target :=
  match r.reference with
  | none => .free
  | some c => .slot c.slot

/-- The switch instant of an opening request, as ds after T0 (R69): the group's own next zero, or the latest of
its cohort's. -/
def openingDelay (s : State) (q : SwitchRequest) : Nat :=
  let own (g : Nat) : Nat := untilNextZero (s.group g) q.t0
  if q.cohort.isEmpty then own q.group else (q.cohort.map own).foldl max 0

/-- An opening (R69), at a switch instant some ds after T0. -/
def openSwitch (q : SwitchRequest) (delay : Nat) (s : State) : State :=
  let p : PendingSwitch := { target := q.target, instant := later q.t0 delay, opening := q.t0 }
  let s1 := takeTarget q.target s
  if delay = 0 then takeSwitch q.group p true s1
  else
    let s2 := s1.setGroup q.group { s1.group q.group with
      pending := some p, cohort := q.cohort.filter (· != q.group) }
    recomputeMembers q.group s2

/-- A retarget (R73). -/
def retarget (g : Nat) (p : PendingSwitch) (t : Target) (s : State) : State :=
  let s1 := takeTarget t (releaseTarget p.target s)
  let s2 := s1.setGroup g { s1.group g with pending := some { p with target := t } }
  recomputeMembers g (leaveCohort g s2)

/-- A cancel (R74). -/
def cancel (g : Nat) (p : PendingSwitch) (s : State) : State :=
  let s1 := releaseTarget p.target s
  let s2 := leaveCohort g s1
  recomputeMembers g (s2.setGroup g { s2.group g with pending := none })

/-- The outcome of one request (Table 4-3); `delay` is that of an opening. -/
def serveSwitch (q : SwitchRequest) (delay : Nat) (s : State) : State :=
  let r := s.group q.group
  if r.state = .empty then s
  else match r.pending with
    | none => if r.current = q.target then s else openSwitch q delay s
    | some p =>
      if p.target = q.target then s
      else if r.current = q.target then cancel q.group p s
      else retarget q.group p q.target s

/-- The hand-over of a pass's requests, all at one T0: every switch instant is computed from the groups as the pass
found them (R67 to R69). They are served in ascending group order (DESIGN CHOICE, assumption log 38). -/
def handOver (qs : List SwitchRequest) (s : State) : State :=
  forEach (qs.map (fun q => (q, openingDelay s q))) (fun q => serveSwitch q.1 q.2) s

/-! ### Membership (R76, R77) -/

/-- A site joins a group (R76); its roster entry is already written. An EMPTY group becomes FREE by its first
member and asks for a pass. -/
def joinGroup (g : Nat) (s : State) : State :=
  if g = 0 then s
  else
    let r := s.group g
    let s1 := s.setGroup g { r with members := r.members + 1 }
    if r.members = 0 then askPass .asked s1 else s1

/-- A group becomes EMPTY (R77): references released, cohort left, fields absent, resume record at plan 0. Of two
references the one on the current slot is released before the one on the pending slot, which decides their places on the
free list where both become FREE (R35; DESIGN CHOICE, assumption log 46). Its governing record stands until the next pass
(R58, R77; DEDUCED, assumption log 36). -/
def emptyGroup (g : Nat) (s : State) : State :=
  let r := s.group g
  let s1 := releaseCurrent r.reference s
  let s2 := match r.pending with
    | none => s1
    | some p => releaseTarget p.target s1
  let s3 := leaveCohort g s2
  (s3.setGroup g GroupRecord.empty).setResume g ResumeRecord.free

/-- A site leaves a group (R77); `inStep` says whether it was counted in step, and its roster entry no longer
names the group. -/
def leaveGroup (g n : Nat) (inStep : Bool) (s : State) : State :=
  if g = 0 then s
  else
    let r := s.group g
    let s1 := s.setGroup g { r with
      members := r.members - 1, inStep := adjustInStep inStep false r.inStep,
      observed := r.observed.filter (· != n) }
    if r.members ≤ 1 then emptyGroup g s1 else judgeSettled g s1

/-! ### GROUP-STATUS (R81) -/

/-- The optional fields of a source identity: kind, event id, program, start minute (Table 12-8). -/
def SourceId.parts (i : SourceId) : List (Option Bool × List Field) :=
  [opt (always [.code i.kind.code]), opt (always [.byte i.eventId]),
   opt (may (i.programEntry.map (·.1)) 0 (fun p => [.byte p])),
   opt (may (i.programEntry.map (·.2)) 0 (fun m => [.minute m]))]

/-- The optional fields of a governing record, its missing record at the end (Table 12-8). Plan fields use a
sentinel (R204). -/
def Governing.parts (v : Governing) : List (Option Bool × List Field) :=
  v.source.parts ++ [opt (always [.mark v.carry]), sentinel [.byte v.plan],
    opt (may (v.missing.map (·.1.kind.code)) 0 (fun k => [.code k])),
    opt (may (v.missing.map (·.1.eventId)) 0 (fun k => [.byte k])),
    opt (may (v.missing.bind (fun m => m.1.programEntry.map (·.1))) 0 (fun k => [.byte k])),
    opt (may (v.missing.bind (fun m => m.1.programEntry.map (·.2))) 0 (fun k => [.minute k])),
    sentinel [.byte ((v.missing.map (·.2)).getD 0)]]

/-- The optional fields of a resume record (Table 12-8). -/
def ResumeRecord.parts (v : ResumeRecord) : List (Option Bool × List Field) :=
  [sentinel [.byte v.plan], opt (may v.checkCode 0 (fun c => [.checkCode c])),
   opt (always [.length v.cycle]), opt (always [.count v.epoch])]

/-- The pending slot of a target: 255 for FREE (Table 12-8). -/
def Target.slotOr255 : Option Target → Nat
  | some (.slot k) => k
  | some .free => 255
  | none => 255

/-- The plan number of a pending target, 0 for FREE or none. -/
def pendingPlan (s : State) : Option Target → Nat
  | some (.slot k) => planOfSlot s k
  | some .free => 0
  | none => 0

/-- The optional fields of GROUP-STATUS (Table 12-8, R81). The master position, which Table 12-1 does not type, is two bytes
(DESIGN CHOICE, assumption log 17). The online members are those whose tracker state is not
OFFLINE: between REPORT_RECEIVED and STU_REPORT the link's online mark is ahead of it (DESIGN CHOICE, assumption log
45). -/
def groupStatusTail (s : State) (g : Nat) : List Field :=
  let r := s.group g
  let c := r.reference
  let t := r.pending.map (·.target)
  let members := s.membersOf g
  withPresence
    ([sentinel (targetFields c),
     opt (may (c.bind (fun v => (s.slot v.slot).checkCode)) 0 (fun k => [.checkCode k])),
     opt (may (c.map (·.epoch)) 0 (fun e => [.count e])), opt (may (c.map (·.cycle)) 0 (fun k => [.length k])),
     opt (may (c.map (fun v => masterPosition v s.now)) 0 (fun k => [.length k])),
     sentinel [.byte (Target.slotOr255 t), .byte (pendingPlan s t)],
     opt (may (r.pending.map (·.instant)) 0 (fun k => [.count k])),
     opt (may (r.pending.map (fun p => sdiff p.instant s.now)) 0 (fun z => [.signed z])),
     opt (may (r.pending.map (·.opening)) 0 (fun k => [.count k])),
     opt (may r.lastSwitch 0 (fun k => [.count k])),
     opt (always [.byte r.members]),
     opt (always [.byte (countWhere members (fun n => decide ((s.tracker n).state ≠ .offline)))]),
     opt (always [.byte (countWhere members (fun n => (s.tracker n).state.isCoordinated))]),
     opt (always [.byte (countWhere members s.held)]),
     opt (always [.byte r.inStep]), opt (always [.mark r.settlePending]),
     opt (always [.byte r.observed.length])]
    ++ (s.governing g).parts ++ (s.resumeOf g).parts
    ++ [opt (!r.cohort.isEmpty, counted r.cohort (fun k => [.byte k]))])

/-- GROUP-STATUS (R81); an absent underlying state is 0 (DESIGN CHOICE, assumption log 17). -/
def serveGroupStatus (tag : Byte) (g : Nat) (s : State) : State :=
  if badGroup g then refuse Kind.groupStatus tag .outOfRange s
  else
    let r := s.group g
    answer Kind.groupStatus tag .ok
      ([.byte g, .code r.state.code, .code ((r.underlying.map GroupState.code).getD 0)]
        ++ groupStatusTail s g) s

end Sys2Proof.Machine
end

