-- ==== Sys2Proof/Machine/Schedule.lean ====
section
/-! DEFINITION. The Schedule Resolver (chapter 3): resolution of a group, resolver passes, and the services of its
requests. -/

namespace Sys2Proof.Machine

/-! ### Resolution of one group (R53 to R55) -/

/-- The minute lies in the window of a PLAN entry; a PROGRAM entry has no window (R44). -/
def EventAction.covers (a : EventAction) (minute : Nat) : Bool :=
  match a with
  | .plan _ start stop => decide (start ≤ minute) && decide (minute < stop)
  | .program _ => true

/-- An event entry applies to a group at a day and minute (R53 step 2). -/
def EventEntry.applies (e : EventEntry) (g day minute : Nat) : Bool :=
  e.groups.contains g && decide (e.firstDay ≤ day) && decide (day ≤ e.lastDay)
    && e.weekdays.getLsbD (weekdayOf day) && e.action.covers minute

/-- Entry `a` wins over entry `b`: higher priority, or the same and written later (R53). -/
def EventEntry.beats (a b : EventEntry) : Bool :=
  decide (b.priority < a.priority) || (decide (a.priority = b.priority) && decide (b.sequence < a.sequence))

/-- The winning event entry with its id, or none (R53). -/
def winningEvent (s : State) (g day minute : Nat) : Option (Nat × EventEntry) :=
  s.resolver.events.foldl (fun best e =>
    match e.2 with
    | none => best
    | some v =>
      if v.applies g day minute && best.all (fun b => v.beats b.2) then some (e.1, v) else best) none

/-- What the calendar and the week table give at a day and minute (R53 steps 2 and 3): a plan, a day program with
the id of the entry that supplied it (0 for the week table), or nothing. -/
inductive DaySource where
  | plan (event number : Nat)
  | program (number event : Nat)
  | nothing
deriving DecidableEq, Repr

/-- Steps 2 and 3 of R53. -/
def daySource (s : State) (g day minute : Nat) : DaySource :=
  match winningEvent s g day minute with
  | some (id, e) =>
    match e.action with
    | .plan n _ _ => .plan id n
    | .program p => .program p id
  | none =>
    let p := (s.week g).getD (weekdayOf day) 0
    if p = 0 then .nothing else .program p 0

/-- The program entry with the largest start minute at or below a minute (R54). -/
def lookupAt (l : List ProgramEntry) (minute : Nat) : Option ProgramEntry :=
  (l.filter (fun e => decide (e.start ≤ minute))).getLast?

/-- The outcome of a resolution: source, plan number, carry mark (R52). -/
structure Resolution where
  source : SourceId
  plan : Nat
  carry : Bool
deriving DecidableEq, Repr

/-- The outcome when nothing gives a plan: FREE with source NONE. -/
def Resolution.nothing (carry : Bool) : Resolution :=
  { source := { kind := .nothing, eventId := 0, programEntry := none }, plan := 0, carry := carry }

/-- The outcome of a PLAN entry. -/
def Resolution.ofEvent (id plan : Nat) (carry : Bool) : Resolution :=
  { source := { kind := .event, eventId := id, programEntry := none }, plan := plan, carry := carry }

/-- The outcome of a program entry. -/
def Resolution.ofProgram (p event : Nat) (e : ProgramEntry) (carry : Bool) : Resolution :=
  { source := { kind := .programEntry, eventId := event, programEntry := some (p, e.start) },
    plan := e.plan, carry := carry }

/-- The day before a day number (R54). -/
def dayBefore (day : Nat) : Nat := if day = 0 then 65535 else day - 1

/-- The previous-day carry (R54). -/
def resolveCarry (s : State) (g day : Nat) : Resolution :=
  match daySource s g (dayBefore day) 1439 with
  | .nothing => Resolution.nothing true
  | .plan id n => Resolution.ofEvent id n true
  | .program p id =>
    match lookupAt (s.program p) 1439 with
    | none => Resolution.nothing true
    | some e => Resolution.ofProgram p id e true

/-- The resolution of a group at a day and minute (R53, R54). -/
def resolve (s : State) (g day minute : Nat) : Resolution :=
  match s.forceOf g with
  | some f =>
    { source := { kind := .force, eventId := 0, programEntry := none }, plan := f.plan, carry := false }
  | none =>
    match daySource s g day minute with
    | .nothing => Resolution.nothing false
    | .plan id n => Resolution.ofEvent id n false
    | .program p id =>
      match lookupAt (s.program p) minute with
      | some e => Resolution.ofProgram p id e false
      | none => resolveCarry s g day

/-- The slot, or FREE, that a plan number maps to; none when the mapping fails (R55). -/
def mapPlan (s : State) (plan : Nat) : Option Target :=
  if plan = 0 then some .free else (postedSlot s plan).map .slot

/-! ### Notices of a pass (R55, R56) -/

/-- The program entry of an identity as optional fields. -/
def programEntryFields (i : SourceId) : List (Option Bool × List Field) :=
  [opt (may (i.programEntry.map (·.1)) 0 (fun p => [.byte p])),
   opt (may (i.programEntry.map (·.2)) 0 (fun m => [.minute m]))]

/-- PLAN-MISSING (R55). -/
def raisePlanMissing (g day minute : Nat) (r : Resolution) (s : State) : State :=
  raise .planMissing
    ([.byte g, .code r.source.kind.code, .byte r.source.eventId] ++ withPresence
      (programEntryFields r.source ++ [sentinel [.byte r.plan], opt (always [.day day]),
        opt (always [.minute minute])])) s

/-- ENTRY-TAKEN of a kind (R56). -/
def raiseEntryTaken (g day minute : Nat) (kind : SourceKind) (r : Resolution) (s : State) : State :=
  raise .entryTaken
    ([.byte g, .code kind.code, .byte r.source.eventId] ++ withPresence
      (programEntryFields r.source ++ [sentinel [.byte r.plan], opt (always [.mark r.carry]),
        opt (always [.day day]), opt (always [.minute minute])])) s

/-- The notify mark of an event id, as the entry stands. -/
def eventNotifies (s : State) (id : Nat) : Bool := (s.event id).any (·.notify)

/-- The notify mark of a program entry, as the program stands. -/
def programNotifies (s : State) (e : Option (Nat × Nat)) : Bool :=
  e.any (fun i => (s.program i.1).any (fun x => decide (x.start = i.2) && x.notify))

/-- The ENTRY-TAKEN notices of a group, the EVENT one first (R56). -/
def noteEntryTaken (g day minute : Nat) (before : SourceId) (r : Resolution) (s : State) : State :=
  let s1 :=
    if r.source.eventId ≠ 0 ∧ r.source.eventId ≠ before.eventId ∧ eventNotifies s r.source.eventId then
      raiseEntryTaken g day minute .event r s
    else s
  if r.source.programEntry.isSome ∧ r.source.programEntry ≠ before.programEntry
      ∧ programNotifies s r.source.programEntry then
    raiseEntryTaken g day minute .programEntry r s1
  else s1

/-- The missing record after a resolution (R55), and whether PLAN-MISSING is raised. -/
def missingAfter (before : Option (SourceId × Nat)) (mapped : Bool) (r : Resolution) :
    Option (SourceId × Nat) × Bool :=
  if mapped then (none, false)
  else (some (r.source, r.plan), decide (before ≠ some (r.source, r.plan)))

/-! ### Switch requests of a pass (R59, R60) -/

/-- The request that a mapped result makes of a group, if any (R59). -/
def requestFor (r : GroupRecord) (mapped : Option Target) : Option Target :=
  match mapped with
  | none => none
  | some t =>
    match r.pending with
    | some p => if p.target = t then none else some t
    | none => if r.current = t then none else some t

/-- The switch request of a group to a target (R60), its cohort not yet formed. -/
def switchRequest (s : State) (g : Nat) (t : Target) (t0 : Count) : SwitchRequest :=
  let h := match t with
    | .free => none
    | .slot k => (s.slot k).header
  { group := g, target := t, t0 := t0, cycle := (h.map (·.cycle)).getD 0,
    key := (h.map (·.cohortKey)).getD 0, cohort := [] }

/-- A starting request for a plan with a cohort key (R60). -/
def isKeyedStart (s : State) (q : SwitchRequest) : Bool :=
  (s.group q.group).pending.isNone && decide (q.target ≠ .free) && decide (q.key ≠ 0)

/-- The cohorts of a pass (R60): keyed starting requests with the same key and cycle length, two or more of them. -/
def formCohorts (s : State) (qs : List SwitchRequest) : List SwitchRequest :=
  qs.map (fun q =>
    let mates := (qs.filter (fun x => isKeyedStart s x && x.key == q.key && x.cycle == q.cycle)).map (·.group)
    if isKeyedStart s q && decide (2 ≤ mates.length) then { q with cohort := mates } else q)

/-! ### The pass (R50, R58) -/

/-- Minutes of a day and minute of day (R50). -/
def minuteCount (day minute : Nat) : Int := (day : Int) * 1440 + minute

/-- A force's end is reached at a day and minute: the difference, reduced modulo 65536 days, is 0 or more (R50). -/
def Force.expired (f : Force) (day minute : Nat) : Bool :=
  f.ends.any (fun e =>
    decide (0 ≤ (minuteCount day minute - minuteCount e.1 e.2 + 47185920) % 94371840 - 47185920))

/-- Every expired force is removed (R50). -/
def expireForces (day minute : Nat) (s : State) : State :=
  { s with resolver := { s.resolver with
      forces := s.resolver.forces.filter (fun e => !e.2.any (fun f => f.expired day minute)) } }

/-- One group of a pass (R58 step 2): its governing record and notices, and its request added to the list. The record of a
group is reset by a pass that finds the group EMPTY (R52, R77; DEDUCED, assumption log 36). -/
def resolveGroup (day minute : Nat) (t0 : Count) (g : Nat) (acc : State × List SwitchRequest) :
    State × List SwitchRequest :=
  let s := acc.1
  if (s.group g).state = .empty then (s.setGoverning g Governing.reset, acc.2)
  else
    let before := s.governing g
    let r := resolve s g day minute
    let mapped := mapPlan s r.plan
    let miss := missingAfter before.missing mapped.isSome r
    let s1 := s.setGoverning g { source := r.source, carry := r.carry, plan := r.plan, missing := miss.1 }
    let s2 := if miss.2 then raisePlanMissing g day minute r s1 else s1
    let s3 := noteEntryTaken g day minute before.source r s2
    match requestFor (s.group g) mapped with
    | none => (s3, acc.2)
    | some t => (s3, acc.2 ++ [switchRequest s g t t0])

/-- A resolver pass at a day, minute and count (R58). -/
def resolverPassAt (day minute : Nat) (t0 : Count) (s : State) : State :=
  let r := (upTo Config.groups).foldl (fun acc g => resolveGroup day minute t0 g acc)
    (expireForces day minute s, [])
  handOver (formCohorts r.1 r.2) r.1

/-- The earliest pass asked for and not yet made is made (R57, R58); with none asked for, no pass is made. -/
def runOwedPass (s : State) : State :=
  match s.resolver.owed with
  | [] => s
  | p :: rest =>
    let s1 := { s with resolver := { s.resolver with owed := rest } }
    match p with
    | .signal day minute t0 => resolverPassAt day minute t0 s1
    | .asked => resolverPassAt s.time.day (minuteOf s.time.timeOfDay) s.now s1

/-! ### Services -/

/-- WRITE-DAY-PROGRAM (R41). The index of the first bad or first unordered entry counts the entries carried from 0 (DESIGN
CHOICE, assumption log 48). -/
def serveWriteDayProgram (tag : Byte) (p : Nat) (es : List RawProgramEntry) (s : State) : State :=
  let kind := Kind.writeDayProgram
  if outside 1 Config.programs p || decide (Config.entriesPerProgram < es.length) then
    answer kind tag .outOfRange [.byte 255] s
  else match es.findIdx? badProgramEntry with
    | some j => answer kind tag .outOfRange [.byte j] s
    | none =>
      match firstUnordered (es.map (·.start)) with
      | some j => answer kind tag .duplicate [.byte j] s
      | none =>
        if s.storing then refuse kind tag .busy s
        else
          let s1 := { s with resolver := { s.resolver with
            programs := Table.set [] s.resolver.programs p (es.map storedProgramEntry) } }
          askPass .asked (answer kind tag .ok [.byte p, .byte es.length] s1)

/-- READ-DAY-PROGRAM (R42). -/
def serveReadDayProgram (tag : Byte) (p : Nat) (s : State) : State :=
  if outside 1 Config.programs p then refuse Kind.readDayProgram tag .outOfRange s
  else answer Kind.readDayProgram tag .ok
    (.byte p :: counted (s.program p) ProgramEntry.fields) s

/-- WRITE-WEEK (R43). -/
def serveWriteWeek (tag : Byte) (g : Nat) (ps : List Nat) (s : State) : State :=
  let kind := Kind.writeWeek
  if badGroup g then answer kind tag .outOfRange [.byte 255] s
  else match (padTo 7 ps).findIdx? (fun p => decide (Config.programs < p)) with
    | some d => answer kind tag .outOfRange [.byte d] s
    | none =>
      if s.storing then refuse kind tag .busy s
      else
        let s1 := { s with resolver := { s.resolver with
          weeks := Table.set (List.replicate 7 0) s.resolver.weeks g (padTo 7 ps) } }
        askPass .asked (refuse kind tag .ok s1)

/-- READ-WEEK (R43). -/
def serveReadWeek (tag : Byte) (g : Nat) (s : State) : State :=
  if badGroup g then refuse Kind.readWeek tag .outOfRange s
  else answer Kind.readWeek tag .ok ((s.week g).map .byte) s

/-- The number of event entries held (R46). -/
def eventsHeld (s : State) : Nat := (s.resolver.events.filter (fun e => e.2.isSome)).length

/-- WRITE-EVENT (R45, R46). The list index of a group's second appearance counts the group list from 0 (DESIGN CHOICE,
assumption log 48). -/
def serveWriteEvent (tag : Byte) (e : RawEvent) (s : State) : State :=
  let kind := Kind.writeEvent
  match eventFault e with
  | some place => answer kind tag .outOfRange [.named place] s
  | none =>
    match firstRepeat e.groups with
    | some j => answer kind tag .duplicate [.byte j] s
    | none =>
      if s.storing then refuse kind tag .busy s
      else if Config.sequenceTop ≤ s.resolver.sequence then refuse kind tag .noSpace s
      else
        let replaced := (s.event e.id).isSome
        let q := s.resolver.sequence
        let s1 := { s with resolver := { s.resolver with
          events := Table.set none s.resolver.events e.id (some (storedEvent e q)), sequence := q + 1 } }
        askPass .asked
          (answer kind tag .ok [.byte e.id, .large q, .byte (eventsHeld s1), .mark replaced] s1)

/-- DELETE-EVENT (R47). -/
def serveDeleteEvent (tag : Byte) (id : Nat) (s : State) : State :=
  let kind := Kind.deleteEvent
  if outside 1 Config.events id then refuse kind tag .outOfRange s
  else if s.storing then refuse kind tag .busy s
  else if (s.event id).isNone then refuse kind tag .notFound s
  else
    let s1 := { s with resolver := { s.resolver with
      events := Table.set none s.resolver.events id none } }
    askPass .asked (answer kind tag .ok [.byte (eventsHeld s1)] s1)

/-- The entry that READ-EVENT reads: under the id, or with the next mark set under the lowest occupied id at or
above it (R48). -/
def eventToRead (s : State) (id : Nat) (next : Bool) : Option (Nat × EventEntry) :=
  if next then
    ((upTo Config.events).filterMap (fun k => (s.event k).map (fun e => (k, e)))).find?
      (fun x => decide (id ≤ x.1))
  else (s.event id).map (fun e => (id, e))

/-- READ-EVENT (R48). Every reply carries the number of entries held and the sequence counter; an unknown next mark is
OUT-OF-RANGE (DEDUCED, assumption log 28). -/
def serveReadEvent (tag : Byte) (id next : Nat) (s : State) : State :=
  let kind := Kind.readEvent
  let tail : List Field := [.byte (eventsHeld s), .large s.resolver.sequence]
  if outside 1 Config.events id || badMark next then answer kind tag .outOfRange tail s
  else match eventToRead s id (decide (next = 1)) with
    | none => answer kind tag .notFound tail s
    | some (k, e) => answer kind tag .ok (eventFields k e ++ tail) s

/-- The end of a timed force (R49). -/
def forceEnd (day minute duration : Nat) : Nat × Nat :=
  if 1440 ≤ minute + duration then ((day + 1) % 65536, minute + duration - 1440) else (day, minute + duration)

/-- The duration of FORCE-PLAN: OPEN is 65535 (R204). -/
def isOpenDuration (duration : Nat) : Bool := decide (duration = 65535)

/-- The first bad field of FORCE-PLAN: group list, plan number, duration (R49). -/
def forceFault (plan duration : Nat) (gs : List Nat) : Option Nat :=
  firstFault [outside 1 Config.groups gs.length || gs.any badGroup, decide (Config.plans < plan),
    decide (duration = 0)]

/-- FORCE-PLAN (R49). -/
def serveForcePlan (tag : Byte) (plan duration : Nat) (gs : List Nat) (s : State) : State :=
  let kind := Kind.forcePlan
  match forceFault plan duration gs with
  | some place => answer kind tag .outOfRange [.named place] s
  | none =>
    if (firstRepeat gs).isSome then refuse kind tag .duplicate s
    else if plan ≠ 0 ∧ (postedSlot s plan).isNone then refuse kind tag .notFound s
    else if isOpenDuration duration = false ∧ s.time.valid = false then refuse kind tag .noTime s
    else
      let ends := if isOpenDuration duration then none
        else some (forceEnd s.time.day (minuteOf s.time.timeOfDay) (min 1440 duration))
      let clamped := !isOpenDuration duration && decide (1440 < duration)
      let s1 := forEach gs (fun g t => t.setForce g (some { plan := plan, ends := ends })) s
      askPass .asked (answer kind tag (if clamped then .adjusted else .ok)
        (withPresence [opt (may (ends.map (·.1)) 0 (fun d => [.day d])),
          opt (may (ends.map (·.2)) 0 (fun m => [.minute m]))]) s1)

/-- RELEASE-FORCE (R51). -/
def serveReleaseForce (tag : Byte) (gs : List Nat) (s : State) : State :=
  let kind := Kind.releaseForce
  if outside 1 Config.groups gs.length || gs.any badGroup then refuse kind tag .outOfRange s
  else if (firstRepeat gs).isSome then refuse kind tag .duplicate s
  else
    let removed := countWhere gs (fun g => (s.forceOf g).isSome)
    askPass .asked (answer kind tag .ok [.byte removed] (forEach gs (fun g t => t.setForce g none) s))

end Sys2Proof.Machine
end

