-- ==== Sys2Proof/Machine/Clock.lean ====
section
/-! DEFINITION. The Time Base (chapter 1): capture and discipline, the tick, the civil clock, and the services of SET-TIME
and GET-TIME. -/

namespace Sys2Proof.Machine

/-- The state with the Time Base replaced. -/
def State.setTime (s : State) (v : TimeBase) : State := { s with time := v }

/-! ### Capture and discipline (R2 to R4) -/

/-- PPS-LOST (R4); not raised while RESET is held (R1). -/
def raisePpsLost (s : State) : State :=
  if s.startUp.phase = .held then s
  else raise .ppsLost [.count s.now, .large s.time.acceptedN] s

/-- The capture counter passes 30,000,000 within some oscillator counts, after a first edge (R4). -/
def absenceWithin (v : TimeBase) (counts : Nat) : Bool :=
  v.edgeSeen && decide (v.captureCounter < Config.absenceCounts)
    && decide (Config.absenceCounts ≤ v.captureCounter + counts)

/-- Some oscillator counts pass: the capture counter advances, holding at the top (R2), and PPS absence is detected where
it passes 30,000,000 (R4). -/
def passCounts (counts : Nat) (s : State) : State :=
  let v := s.time
  let s1 := s.setTime { v with captureCounter := min Config.captureTop (v.captureCounter + counts) }
  if absenceWithin v counts ∧ v.discipline = .locked then
    raisePpsLost (s1.setTime { s1.time with discipline := .holdover })
  else s1

/-- A capture of a whole second is within the band of R3. -/
def inBand (n : Nat) : Bool := decide (9998000 ≤ n) && decide (n ≤ 10002000)

/-- A PPS edge as it reaches the capture counter (R2, R3, R4). -/
def takeEdge (v : TimeBase) : TimeBase :=
  if v.edgeSeen = false then { v with edgeSeen := true, captureCounter := 0 }
  else if inBand v.captureCounter then
    { v with captureCounter := 0, lastCapture := v.captureCounter, verdict := .accepted,
             acceptedN := v.captureCounter, discipline := .locked }
  else { v with captureCounter := 0, lastCapture := v.captureCounter, verdict := .rejected }

/-- Counts that pass within the current tick (R5). -/
def spend (counts : Nat) (s : State) : State :=
  s.setTime { s.time with tickSpent := s.time.tickSpent + counts }

/-- A PPS edge, some oscillator counts after the latest tick, edge or absence (R2; assumption log 7). -/
def ppsEdgeAt (counts : Nat) (s : State) : State :=
  let s1 := spend counts (passCounts counts s)
  s1.setTime (takeEdge s1.time)

/-- The oscillator counts left until the capture counter stands at 30,000,000. -/
def countsToAbsence (v : TimeBase) : Nat := Config.absenceCounts - v.captureCounter

/-- PPS absence (R4): the capture counter reaches 30,000,000; without a first edge, or past that value, none is
detected. -/
def reachAbsence (s : State) : State :=
  if s.time.edgeSeen ∧ s.time.captureCounter < Config.absenceCounts then
    spend (countsToAbsence s.time) (passCounts (countsToAbsence s.time) s)
  else s

/-! ### The tick (R5 to R12) -/

/-- The length of the current tick in oscillator counts (R5). -/
def tickLength (v : TimeBase) : Nat := if v.tickPhase < v.reloadRem then v.reloadR + 1 else v.reloadR

/-- The ds by which the civil clock advances at a slew step, and the slew remainder after it (R12). -/
def slewAdvance (remainder : Int) : Nat × Int :=
  if 0 < remainder then (2, remainder - 1) else if remainder < 0 then (0, remainder + 1) else (1, 0)

/-- The next tick is a slew step: the slew phase reaches 100 there (R12). -/
def slewDue (v : TimeBase) : Bool := decide (v.slewPhase = 99)

/-- The civil clock some ds later (R8): day and time of day. -/
def civilAfter (day timeOfDay ds : Nat) : Nat × Nat :=
  if Config.dayTicks ≤ timeOfDay + ds then ((day + 1) % 65536, timeOfDay + ds - Config.dayTicks)
  else (day, timeOfDay + ds)

/-- The count and the civil clock at the end of a tick (R5 steps 1 and 2, R7, R8, R12). -/
def tickClocks (v : TimeBase) : TimeBase :=
  let a := if slewDue v then slewAdvance v.slewRemainder else (1, v.slewRemainder)
  let civil := civilAfter v.day v.timeOfDay a.1
  { v with count := v.count + 1, day := civil.1, timeOfDay := civil.2, slewRemainder := a.2,
           slewPhase := if slewDue v then 0 else v.slewPhase + 1 }

/-- The tick phase moves on, and at the start of a tick second the reload is computed afresh (R5 step 4, R6). -/
def nextPhase (v : TimeBase) : TimeBase :=
  if v.tickPhase = 9 then
    { v with tickPhase := 0, tickSpent := 0, reloadR := v.acceptedN / 10, reloadRem := v.acceptedN % 10 }
  else { v with tickPhase := v.tickPhase + 1, tickSpent := 0 }

/-- A minute boundary lies between two civil times on a valid clock (R10). -/
def minuteCrossed (before after : TimeBase) : Bool :=
  after.valid && decide (minuteOf before.timeOfDay ≠ minuteOf after.timeOfDay)

/-- The signal of a minute boundary or a civil step (R10, R13). -/
def timeSignal (v : TimeBase) : PassAsk := .signal v.day (minuteOf v.timeOfDay) v.count

/-- Everything that falls due at the present count and has not been taken: renewals and switches of each group in
ascending order, then the passes asked for, oldest first (assumption log 5). -/
def flushDue (s : State) : State :=
  let s1 := forEach (upTo Config.groups) (fun g t => takeIfDue g (renewEpoch g t)) s
  Nat.repeat runOwedPass s1.resolver.owed.length s1

/-- The end of the current tick, as one event (R5). A PPS absence at the very count that ends the tick is detected before
the coordination count advances (R4; DESIGN CHOICE, assumption log 35). -/
def endTick (s : State) : State :=
  let s1 := passCounts (tickLength s.time - s.time.tickSpent) s
  let s2 := s1.setTime (tickClocks s1.time)
  let s3 := if minuteCrossed s1.time s2.time then askPass (timeSignal s2.time) s2 else s2
  windowTick (s3.setTime (nextPhase s3.time))

/-- A tick: whatever is due at the present count first (assumption log 5), then the end of the tick. -/
def takeTick (s : State) : State := endTick (flushDue s)

/-- A slew step is the tick at which the slew phase reaches 100 (R12), and the whole of that tick (DESIGN CHOICE,
assumption log 8); at any other tick there is none. -/
def takeSlewStep (s : State) : State := if slewDue s.time then takeTick s else s

/-! ### Services -/

/-- A civil time as one number of ds (R11). -/
def civilValue (day timeOfDay : Nat) : Int := (day : Int) * 864000 + timeOfDay

/-- D of R11: the requested less the current value, reduced modulo 65536 days. -/
def timeDifference (v : TimeBase) (day timeOfDay : Nat) : Int :=
  (civilValue day timeOfDay - civilValue v.day v.timeOfDay + 28311552000) % 56623104000 - 28311552000

/-- The request slews (R11). -/
def slews (v : TimeBase) (d : Int) : Bool := v.valid && decide (-20 ≤ d) && decide (d ≤ 20)

/-- A step (R13): clock, valid mark, slew, TIME-STEPPED, and the civil step signalled. -/
def stepClock (day timeOfDay : Nat) (s : State) : State :=
  let v := s.time
  let s1 := s.setTime { v with day := day, timeOfDay := timeOfDay, valid := true, slewRemainder := 0,
                               slewPhase := 0 }
  askPass (timeSignal s1.time)
    (raise .timeStepped [.day v.day, .timeOfDay v.timeOfDay, .mark v.valid, .day day,
      .timeOfDay timeOfDay, .count s.now] s1)

/-- SET-TIME (R11 to R13). The action is SLEW (0) or STEP (1). -/
def serveSetTime (tag : Byte) (day timeOfDay : Nat) (s : State) : State :=
  let kind := Kind.setTime
  let v := s.time
  let old : List Field := [.day v.day, .timeOfDay v.timeOfDay, .mark v.valid]
  let d := timeDifference v day timeOfDay
  if decide (65535 < day) || decide (863999 < timeOfDay) then refuse kind tag .outOfRange s
  else if slews v d then
    answer kind tag .ok (.code 0 :: old) (s.setTime { v with slewRemainder := d, slewPhase := 0 })
  else answer kind tag .ok (.code 1 :: old) (stepClock day timeOfDay s)

/-- GET-TIME (R14). Table 12-1 types neither the weekday nor the slew remainder: the weekday is sent as one byte and
the remainder as a signed length of four (DESIGN CHOICE, assumption log 17). -/
def serveGetTime (tag : Byte) (s : State) : State :=
  let v := s.time
  answer Kind.getTime tag .ok
    [.count v.count, .day v.day, .timeOfDay v.timeOfDay, .minute (minuteOf v.timeOfDay),
     .byte (weekdayOf v.day), .mark v.valid, .signed v.slewRemainder, .code v.discipline.code,
     .large v.acceptedN, .large v.lastCapture, .code v.verdict.code] s

end Sys2Proof.Machine
end

