-- ==== Sys2Proof/Machine/Flags.lean ====
section
/-! DEFINITION. Flag sets: the blocking flags, the number of flags in a set, and the ATTN level that the raised
flags and the mask give (R167, R171, R173). -/

namespace Sys2Proof.Machine

/-- MANUAL, PREEMPT and FLASH, bits 0 to 2 of a raised-flag set (Table 9-1, R202). -/
def blockingFlags : Byte := 0x07

/-- A set carries a blocking flag (R171). -/
def carriesBlocking (f : Byte) : Bool := decide (f &&& blockingFlags ≠ 0)

/-- The number of flags in a set. -/
def flagCount (f : Byte) : Nat := countWhere (List.range 8) (fun i => f.getLsbD i)

/-- The ATTN level: some site's raised-flag set holds a flag that the mask counts (R173). -/
def attnLevel (u : FlagUnit) : Bool := u.raised.any (fun e => decide (e.2 &&& u.mask ≠ 0))

/-- The FU recomputes the ATTN level (R173). -/
def recomputeAttn (s : State) : State :=
  { s with flags := { s.flags with attn := attnLevel s.flags } }

/-- The number of sites whose set holds a flag that the mask counts (R172). -/
def sitesCounted (u : FlagUnit) : Nat := (u.raised.filter (fun e => decide (e.2 &&& u.mask ≠ 0))).length

/-- The ATTN pin as driven: low while RESET is held and while LOADING (R173). -/
def attnPin (s : State) : Bool := s.isRunning && s.flags.attn

end Sys2Proof.Machine
end

