-- ==== Sys2Proof/Machine/Monitor.lean ====
section
/-! DEFINITION. The Conformance Monitor (chapter 6): disturbed cycles, the judgement of a completed cycle, holds,
the watch, and the services of its requests. -/

namespace Sys2Proof.Machine

/-! ### Reports (R114) -/

/-- The earliest report of a site in a list of reports handed over, with the list left when it is taken. -/
def takeReport {α : Type} (n : Nat) : List (Nat × α) → Option (α × List (Nat × α))
  | [] => none
  | e :: r => if e.1 = n then some (e.2, r) else (takeReport n r).map (fun x => (x.1, e :: x.2))

/-- The last disturbance count after a report: a blocking flag sets it to the report's capture count (R114). -/
def disturbedBy (last : Option Count) (r : Report) : Option Count :=
  if carriesBlocking r.flags then some r.captured else last

/-- The CM takes a good report (R114). -/
def noteDisturbance (n : Nat) (r : Report) (s : State) : State :=
  if carriesBlocking r.flags then
    s.setMonitor n { s.monitorOf n with lastDisturbance := some r.captured }
  else s

/-- The reports of a site in a list of reports handed over. -/
def reportsOf {α : Type} (n : Nat) (l : List (Nat × α)) : List α :=
  l.filterMap (fun e => if e.1 = n then some e.2 else none)

/-- The last disturbance count of a site once the CM has taken every report of it that waits. -/
def disturbanceAhead (s : State) (n : Nat) : Option Count :=
  (reportsOf n s.handed.cm).foldl disturbedBy (s.monitorOf n).lastDisturbance

/-- The state with the reports that wait for the CM replaced. -/
def State.setHandedCm (s : State) (l : List (Nat × Report)) : State :=
  { s with handed := { s.handed with cm := l } }

/-- The CM takes the earliest report of a site that waits for it; with none waiting nothing changes. -/
def takeCmReport (n : Nat) (s : State) : State :=
  match takeReport n s.handed.cm with
  | none => s
  | some (r, rest) => noteDisturbance n r (s.setHandedCm rest)

/-- The CM takes the reports of a site up to and with the one that the STU has just taken, where it has not taken
them yet: a report and the zero hand-over of it are one event (R114). A report is handed to both lists at once, so those
left to the STU are the later ones. -/
def takeCmReports (n : Nat) (s : State) : State :=
  Nat.repeat (takeCmReport n) ((reportsOf n s.handed.cm).length - (reportsOf n s.handed.stu).length) s

/-! ### Judgement (R116 to R118) -/

/-- Verdict of a judgement (R116, R117). -/
inductive CycleVerdict where
  | conforming
  | deviant (sign : DevSign)
  | noStart
  | counterGap
  | notCoordinated
  | noOrder
  | disturbed
deriving DecidableEq, Repr

/-- Verdict code (Table 12-2). -/
def CycleVerdict.code : CycleVerdict → Nat
  | .conforming => 0 | .deviant _ => 1 | .noStart => 2 | .counterGap => 3 | .notCoordinated => 4
  | .noOrder => 5 | .disturbed => 6

/-- The measured length of a completed cycle: Z_k − Z_(k−1), absent for NO-START (R117, Table 6-3). The other excluded
cycles have it too, although their judgement ends before R117 (DESIGN CHOICE, assumption log 47). -/
def HandedZero.measured (z : HandedZero) : Option Int := z.before.map (fun b => sdiff z.zero b)

/-- The expected length: L of the order handed, absent for NO-ORDER (R117, Table 6-3). The other excluded cycles have it
too where an order with a length was handed, NO-START among them (DESIGN CHOICE, assumption log 47). -/
def HandedZero.expected (z : HandedZero) : Option Nat := z.ran.bind (·.length)

/-- The cycle that began at Z_(k−1) is disturbed (R114). -/
def HandedZero.disturbed (z : HandedZero) (start : Count) : Bool :=
  z.disturbance.any (fun t => atOrAfter t start)

/-- The exclusion tests of R116 in their order, then the comparison of R117. -/
def verdictOf (tolerance : Nat) (z : HandedZero) : CycleVerdict :=
  match z.before with
  | none => .noStart
  | some start =>
    if z.delta.all (fun d => decide (2 ≤ d)) then .counterGap
    else if z.startState.all (fun t => !t.isCoordinated) then .notCoordinated
    else match z.expected with
      | none => .noOrder
      | some length =>
        if z.blocking || z.disturbed start then .disturbed
        else
          let deviation : Int := sdiff z.zero start - length
          if deviation.natAbs ≤ tolerance then .conforming
          else .deviant (if 0 < deviation then .long else .short)

/-- The monitor record after a verdict (R118). -/
def MonitorRecord.after (m : MonitorRecord) : CycleVerdict → MonitorRecord
  | .conforming => { m with deviations := 0, sign := none }
  | .deviant sign => { m with deviations := countUp 127 m.deviations, sign := some sign }
  | .noStart => m
  | .counterGap => m
  | .notCoordinated => m
  | .noOrder => m
  | .disturbed => m

/-- The hold limit in cycles that a code names (Table 6-2). -/
def holdLimit (code : Nat) : Nat := [1, 2, 3, 4, 8, 16, 32, 64].getD code 64

/-- SITE-HELD (R119). The hold limit in cycles, which Table 12-1 does not type, is one byte (DESIGN CHOICE, assumption log
17). -/
def raiseSiteHeld (z : HandedZero) (s : State) : State :=
  let m := s.monitorOf z.site
  raise .siteHeld
    [.site z.site, .byte (s.groupOf z.site), .count z.zero, .count s.now, .byte m.deviations,
     .byte (holdLimit s.monitor.limitCode), .code ((m.sign.map DevSign.code).getD 0),
     .signed (z.measured.getD 0), .length (z.expected.getD 0), .length s.monitor.tolerance,
     .byte ((z.ran.map (·.sequence.toNat)).getD 0), .code ((z.ran.map (·.kind.code)).getD 0)] s

/-- A DEVIANT verdict at the hold limit sets a clear hold mark and raises SITE-HELD (R119); the GCU is told (R120). A
GROUP-SETTLED that this causes is raised before SITE-HELD (R187; DESIGN CHOICE, assumption log 37). -/
def holdIfDue (z : HandedZero) (s : State) : State :=
  if holdLimit s.monitor.limitCode ≤ (s.monitorOf z.site).deviations ∧ s.held z.site = false then
    raiseSiteHeld z (withTold z.site (fun t => t.setHeld z.site true) s)
  else s

/-- The verdict on a zero, at the tolerance in force (R117, R124). -/
def verdictAt (s : State) (z : HandedZero) : CycleVerdict := verdictOf s.monitor.tolerance z

/-- A verdict is DEVIANT. -/
def CycleVerdict.isDeviant : CycleVerdict → Bool
  | .deviant _ => true
  | .conforming => false
  | .noStart => false
  | .counterGap => false
  | .notCoordinated => false
  | .noOrder => false
  | .disturbed => false

/-- The verdict on a zero takes effect (R118, R119). -/
def applyVerdict (z : HandedZero) (s : State) : State :=
  let v := verdictAt s z
  let s1 := s.setMonitor z.site ((s.monitorOf z.site).after v)
  if v.isDeviant then holdIfDue z s1 else s1

/-! ### The watch (R126) -/

/-- A cycle count as a byte: 254 stands for 254 and more, 255 for unbounded (R126). -/
def cyclesByte (n : Option Nat) : Nat :=
  match n with
  | none => 255
  | some k => min 254 k

/-- WATCH (R126, Table 6-3), after the judgement. Δ, which Table 12-1 does not type, is one byte (DESIGN CHOICE, assumption
log 17). Both lengths are given wherever their values exist, whatever the verdict (DESIGN CHOICE, assumption log 47). The
reason of an order that is not NOMINAL is present, with the code none
of Table 12-2 (DESIGN CHOICE, assumption log 40). -/
def raiseWatch (z : HandedZero) (verdict : CycleVerdict) (s : State) : State :=
  let m := s.monitorOf z.site
  let order := z.issued.map (·.1)
  let computation := z.issued.map (·.2)
  let needs := computation.bind (·.needs)
  let limits := computation.bind (·.limits)
  raise .watch
    ([.site z.site, .byte (s.groupOf z.site), .count z.zero] ++ withPresence
      [opt (may z.delta 0 (fun d => [.byte d])), opt (may z.lagObserved 0 (fun l => [.length l])),
       opt (always [.code z.stateAfter.code]),
       opt (may needs ⟨0, 0, 0⟩ (fun w => [.length w.lag])),
       opt (may needs ⟨0, 0, 0⟩ (fun w => [.length w.shortenNeed])),
       opt (may needs ⟨0, 0, 0⟩ (fun w => [.length w.lengthenNeed])),
       opt (may (limits.map (·.smax)) 0 (fun k => [.length k])),
       opt (may (limits.map (·.lmax)) 0 (fun k => [.length k])),
       opt (may (limits.map (·.shortenCycles)) (some 0) (fun k => [.byte (cyclesByte k)])),
       opt (may (limits.map (·.lengthenCycles)) (some 0) (fun k => [.byte (cyclesByte k)])),
       opt (may (order.map (·.kind.direction)) 0 (fun k => [.code k])),
       opt (may (order.map (·.correction)) 0 (fun k => [.length k])),
       opt (may (order.map (·.sequence.toNat)) 0 (fun k => [.byte k])),
       opt (may (order.map (·.kind.code)) 0 (fun k => [.code k])),
       opt (may (order.bind (·.length)) 0 (fun k => [.length k])),
       opt (may (computation.map (·.reason.code)) 0 (fun k => [.code k])),
       opt (may z.measured 0 (fun k => [.signed k])), opt (may z.expected 0 (fun k => [.length k])),
       opt (always [.code verdict.code]), opt (always [.byte m.deviations]),
       opt (may (m.sign.map DevSign.code) 0 (fun k => [.code k])), opt (always [.mark (s.held z.site)])]) s

/-- The WATCH notice of a zero of the watched site (R125, R126; DEDUCED, assumption log 25). -/
def watchZero (z : HandedZero) (verdict : CycleVerdict) (s : State) : State :=
  if z.watched && decide (s.monitor.watched = z.site) then raiseWatch z verdict s else s

/-- The earliest zero of a site that waits for judgement, with the list left when it is taken. -/
def takeZero (n : Nat) : List HandedZero → Option (HandedZero × List HandedZero)
  | [] => none
  | z :: r => if z.site = n then some (z, r) else (takeZero n r).map (fun x => (x.1, z :: x.2))

/-- The state with the zeros that wait for judgement replaced. -/
def State.setZeros (s : State) (l : List HandedZero) : State :=
  { s with monitor := { s.monitor with zeros := l } }

/-- The CM judges the earliest zero of a site that waits for it; with none waiting nothing changes. Where one judgement
raises both, SITE-HELD comes before WATCH (DESIGN CHOICE, assumption log 37). -/
def judgeNext (n : Nat) (s : State) : State :=
  match takeZero n s.monitor.zeros with
  | none => s
  | some (z, rest) =>
    let s1 := s.setZeros rest
    watchZero z (verdictAt s1 z) (applyVerdict z s1)

/-- The CM judges every zero of a site that waits for it, oldest first (R115). -/
def judgeWaiting (n : Nat) (s : State) : State :=
  Nat.repeat (judgeNext n) (s.monitor.zeros.filter (fun z => z.site == n)).length s

/-! ### Services -/

/-- The sites whose hold mark is set, in rising order. -/
def heldSites (s : State) : List Nat := (s.retained.holds.filter (·.2)).map (·.1)

/-- Releasing a site on the CM's side: mark cleared, count 0, sign absent, the GCU told (R121, R120). -/
def clearHold (n : Nat) (s : State) : State :=
  let s1 := s.setMonitor n { s.monitorOf n with deviations := 0, sign := none }
  withTold n (fun t => t.setHeld n false) s1

/-- The STU's side of a release (R106). -/
def reanchor (n : Nat) (s : State) : State :=
  match (s.tracker n).state with
  | .seeking => changeState n .acquiring .holdReleased (setAnchor n false s)
  | .inStep => changeState n .acquiring .holdReleased (setAnchor n false s)
  | .acquiring => setAnchor n false s
  | .free => s
  | .offline => s

/-- A site is released (R121, R106). -/
def releaseSite (n : Nat) (s : State) : State := reanchor n (clearHold n s)

/-- RELEASE-HOLD (R121). For site 0 the held sites are released in rising site number (DESIGN CHOICE, assumption log
46), and the number released is sent as a total of two bytes (DESIGN CHOICE, assumption log 17). -/
def serveReleaseHold (tag : Byte) (n : Nat) (s : State) : State :=
  let kind := Kind.releaseHold
  let done (l : List Nat) : State :=
    answer kind tag .ok [.total l.length, .count s.now] (forEach l releaseSite s)
  if Config.sites < n then refuse kind tag .outOfRange s
  else if n = 0 then done (heldSites s)
  else if (s.rosterEntry n).isNone then refuse kind tag .notFound s
  else if s.held n then done [n]
  else refuse kind tag .wrongState s

/-- SET-MONITOR (R123). A refusal names the setting at fault, counted from 0 in the order of Table 6-2. The number of
held sites is sent as a total of two bytes (DESIGN CHOICE, assumption log 17). -/
def serveSetMonitor (tag : Byte) (read tolerance code : Nat) (s : State) : State :=
  let kind := Kind.setMonitor
  let old := s.monitor
  let done (s' : State) : State := answer kind tag .ok
    [.length old.tolerance, .code old.limitCode, .length s'.monitor.tolerance, .code s'.monitor.limitCode,
     .byte (holdLimit s'.monitor.limitCode), .total (heldSites s').length] s'
  if badMark read then refuse kind tag .outOfRange s
  else if read = 1 then done s
  else if outside 1 50 tolerance then answer kind tag .outOfRange [.named 0] s
  else if 7 < code then answer kind tag .outOfRange [.named 1] s
  else if s.storing then refuse kind tag .busy s
  else done { s with monitor := { s.monitor with tolerance := tolerance, limitCode := code } }

/-- WATCH (R125). -/
def serveWatch (tag : Byte) (n : Nat) (s : State) : State :=
  let kind := Kind.watch
  if Config.sites < n then refuse kind tag .outOfRange s
  else if n ≠ 0 ∧ (s.rosterEntry n).isNone then refuse kind tag .notFound s
  else answer kind tag .ok [.site s.monitor.watched]
    { s with monitor := { s.monitor with watched := n } }

/-- The CM's side of a removal (R122), after the site's roster entry is gone. -/
def forgetMonitor (n : Nat) (s : State) : State :=
  let s1 := (s.setHeld n false).setMonitor n MonitorRecord.reset
  { s1 with monitor := { s1.monitor with
      watched := if s1.monitor.watched = n then 0 else s1.monitor.watched
      zeros := s1.monitor.zeros.filter (fun z => z.site != n) } }

end Sys2Proof.Machine
end

