-- ==== Sys2Proof/Machine/FlagUnit.lean ====
section
/-! DEFINITION. The Flag Unit (chapter 9): latching the flags that sites raise, and the services of CLEAR-FLAGS and
SET-FLAG-MASK. -/

namespace Sys2Proof.Machine

/-- FLAGS-RAISED (R168). -/
def raiseFlagsRaised (n : Nat) (r : Report) (added : Byte) (s : State) : State :=
  let line := ((s.rosterEntry n).map (·.line)).getD 0
  raise .flagsRaised
    [.site n, .byte line, .byte (s.groupOf n), .flags added, .flags (s.raisedFlags n), .flags r.flags,
     .count r.captured, .mark s.flags.attn] s

/-- The FU takes a good report: flags that the set does not hold are added, and then FLAGS-RAISED is raised and ATTN
recomputed (R168). -/
def latchFlags (n : Nat) (r : Report) (s : State) : State :=
  let set := s.raisedFlags n
  let added := r.flags &&& ~~~set
  if added = 0 then s
  else raiseFlagsRaised n r added (recomputeAttn (s.setRaisedFlags n (set ||| added)))

/-- The FU takes the earliest report of a site that waits for it; with none waiting nothing changes. -/
def takeFuReport (n : Nat) (s : State) : State :=
  match takeReport n s.handed.fu with
  | none => s
  | some (r, rest) => latchFlags n r { s with handed := { s.handed with fu := rest } }

/-- A removed site's raised-flag set is emptied (R169). -/
def forgetFlags (n : Nat) (s : State) : State := recomputeAttn (s.setRaisedFlags n 0)

/-- Named flags are removed from one site's set, with the number removed added up (R170). -/
def clearSite (flags : Byte) (n : Nat) (acc : Nat × State) : Nat × State :=
  let set := acc.2.raisedFlags n
  (acc.1 + flagCount (set &&& flags), acc.2.setRaisedFlags n (set &&& ~~~flags))

/-- The sites whose raised-flag set is not empty. -/
def flaggedSites (s : State) : List Nat := s.flags.raised.map (·.1)

/-- CLEAR-FLAGS (R170). The sets before and after are carried for a single site; the number of flags removed is a total of
2 bytes (DESIGN CHOICE, assumption log 17). -/
def serveClearFlags (tag : Byte) (n : Nat) (flags : Byte) (s : State) : State :=
  let kind := Kind.clearFlags
  if Config.sites < n then answer kind tag .outOfRange [.named 0] s
  else if flags = 0 then answer kind tag .outOfRange [.named 1] s
  else if n ≠ 0 ∧ (s.rosterEntry n).isNone then refuse kind tag .notFound s
  else
    let sites := if n = 0 then flaggedSites s else [n]
    let r := sites.foldl (fun acc k => clearSite flags k acc) (0, s)
    let s1 := recomputeAttn r.2
    answer kind tag .ok
      ([.total r.1, .mark s1.flags.attn] ++ withPresence
        [(some (decide (n ≠ 0)), [.flags (if n = 0 then 0 else s.raisedFlags n)]),
         (some (decide (n ≠ 0)), [.flags (if n = 0 then 0 else s1.raisedFlags n)])]) s1

/-- SET-FLAG-MASK (R172). The number of sites counted is sent as a total of two bytes (DESIGN CHOICE, assumption log
17). -/
def serveSetFlagMask (tag : Byte) (read : Nat) (mask : Byte) (s : State) : State :=
  let kind := Kind.setFlagMask
  let done (s' : State) : State := answer kind tag .ok
    [.flags s.flags.mask, .flags s'.flags.mask, .mark s'.flags.attn, .total (sitesCounted s'.flags)] s'
  if badMark read then refuse kind tag .outOfRange s
  else if read = 1 then done s
  else if s.storing then refuse kind tag .busy s
  else done (recomputeAttn { s with flags := { s.flags with mask := mask } })

end Sys2Proof.Machine
end

