-- ==== Sys2Proof/Machine/Tracking.lean ====
section
/-! DEFINITION. The Site Tracking Unit's handling of reports (R89 to R93, R109), its side of roster edits and of a site
going OFFLINE (R105, R107), and SITE-STATUS (R111). -/

namespace Sys2Proof.Machine

/-! ### Reports -/

/-- The local zero that a report shows: t − elapsed (R89). -/
def Report.zero (r : Report) : Count := r.captured - BitVec.ofNat 32 r.elapsed

/-- A report as the last report of a tracker record (Table 5-1). -/
def Report.asLast (r : Report) : LastReport :=
  { captured := r.captured, cycleCounter := r.cycleCounter, elapsed := r.elapsed, running := r.running,
    held := r.held, blocking := carriesBlocking r.flags }

/-- Δ of a report: its cycle counter less the baseline, modulo 256; none where the baseline is absent (R89). -/
def Report.delta (r : Report) (baseline : Option Byte) : Option Nat :=
  baseline.map (fun b => (r.cycleCounter - b).toNat)

/-- The report shows a new local zero (R89). -/
def Report.showsZero (r : Report) (baseline : Option Byte) : Bool := decide (r.delta baseline ≠ some 0)

/-- The zero of a report is taken: Z, the baseline, the tracker state just after, and the report's running
sequence (Table 5-1). -/
def storeZero (n : Nat) (r : Report) (s : State) : State :=
  let t := s.tracker n
  s.setTracker n { t with
    lastZero := some r.zero, baseline := some r.cycleCounter, stateAtZero := some t.state,
    runningAtZero := r.running }

/-- The order that ran in the completed cycle, by the running sequence at last zero: none when it is not in the
ring or is FREE (R91 step 1, R109). -/
def completedOrder (t : Tracker) : Option Order :=
  (findOrder t.ring t.runningAtZero).filter (fun o => decide (o.kind ≠ .free))

/-- The zero of a report as it is handed to the CM (R109): what the record `before` the report held of the completed
cycle, and what classification has left. -/
def handedZero (n : Nat) (e : StuReport) (before : Tracker) (lagObserved : Option Nat) (s : State) : HandedZero :=
  let r := e.report
  { site := n, zero := r.zero, before := before.lastZero, delta := r.delta before.baseline,
    ran := completedOrder before, startState := before.stateAtZero, blocking := carriesBlocking r.flags,
    disturbance := e.disturbance, stateAfter := (s.tracker n).state, lagObserved := lagObserved, issued := none,
    watched := decide (s.monitor.watched = n) }

/-- A handed zero with the order and the computation made at it. -/
def withIssued (n : Nat) (z : HandedZero) (s : State) : HandedZero :=
  let t := s.tracker n
  { z with issued := match t.ring.getLast?, t.computation with
      | some o, some c => some (o, c)
      | _, _ => none }

/-- A zero is handed to the CM, which takes its report with it (R114), and stored, and an order is computed at it with
cause ZERO (R91 steps 3 to 5, R93). The judgement falls before the computation where `judgeFirst` says so, after those of
the site's zeros that still wait (R115), and is left for the CM otherwise (R95; DESIGN CHOICE, assumption log 13). -/
def handAndCompute (n : Nat) (e : StuReport) (before : Tracker) (lagObserved : Option Nat) (judgeFirst : Bool)
    (s : State) : State :=
  let r := e.report
  let z := handedZero n e before lagObserved s
  let s1 := storeZero n r (takeCmReports n s)
  let order (t : State) : State :=
    compute n (basisAt r.zero (currentLength t n r.zero r.running)) (carriesBlocking r.flags) .zero
      lagObserved t
  if judgeFirst then
    let s2 := judgeWaiting n s1
    let s3 := order (applyVerdict z s2)
    watchZero (withIssued n z s3) (verdictAt s2 z) s3
  else
    let s2 := order s1
    s2.setZeros (s2.monitor.zeros ++ [withIssued n z s2])

/-- The classification of a zero (R92): the tracker state and λ_obs, and what the GCU is told (R108). -/
def classifyAt (n : Nat) (t : SiteTarget) (zk : Count) (s : State) : State :=
  let lag := lagOf t zk
  let st := classify t lag
  let s1 := changeState n st .report s
  let s2 := s1.setTracker n { s1.tracker n with lagObserved := some lag }
  if st = .inStep then observe n zk s2 else s2

/-- An observed local zero (R91). -/
def observedZero (n : Nat) (e : StuReport) (judgeFirst : Bool) (s : State) : State :=
  let before := s.tracker n
  let zk := e.report.zero
  match targetInForce s n zk with
  | .free => handAndCompute n e before none judgeFirst s
  | .coordinated t => handAndCompute n e before (some (lagOf t zk)) judgeFirst (classifyAt n t zk s)

/-- The lag of a zero against the target in force at it, absent where that is FREE (R92, Table 6-3). -/
def lagAt (s : State) (n : Nat) (zk : Count) : Option Nat := (targetInForce s n zk).plan.map (fun t => lagOf t zk)

/-- A new local zero shown by a report that carries a blocking flag (R93). The tracker's λ_obs stands; the computation
and the watch are given the lag at the zero (R126; DEDUCED, assumption log 32). -/
def flaggedZero (n : Nat) (e : StuReport) (judgeFirst : Bool) (s : State) : State :=
  handAndCompute n e (s.tracker n) (lagAt s n e.report.zero) judgeFirst s

/-- An order is computed with cause FIRST: L_k is the reference length (R94). Its last computation has λ_obs absent, since
R90 observes no lag at a first report (DEDUCED, assumption log 16). -/
def computeFirst (n : Nat) (r : Report) (s : State) : State :=
  compute n (basisAt r.zero (referenceLength s n r.zero)) (carriesBlocking r.flags) .first none s

/-- A first report (R90). -/
def firstReport (n : Nat) (r : Report) (s : State) : State :=
  computeFirst n r (setAnchor n true (storeZero n r s))

/-- A report of an OFFLINE site (R90). -/
def comeOnline (n : Nat) (r : Report) (s : State) : State :=
  if (currentTarget s n).isFree then
    issueFreeing n (storeZero n r (changeState n .free .report s))
  else
    let s1 := storeZero n r (setAnchor n false (changeState n .acquiring .report s))
    if carriesBlocking r.flags then computeFirst n r s1 else firstReport n r s1

/-- A report of a coordinated site that carries a blocking flag (R93). -/
def blockedReport (n : Nat) (e : StuReport) (showsZero judgeFirst : Bool) (s : State) : State :=
  let s1 := changeState n .acquiring .flag (setAnchor n false s)
  if showsZero then flaggedZero n e judgeFirst s1 else s1

/-- A good report of a site is handled (R89 to R93). -/
def trackReport (n : Nat) (e : StuReport) (judgeFirst : Bool) (s : State) : State :=
  let r := e.report
  let before := s.tracker n
  let new := r.showsZero before.baseline
  let s1 := s.setTracker n { before with lastReport := some r.asLast }
  let blocking := carriesBlocking r.flags
  match before.state with
  | .offline => comeOnline n r s1
  | .free => if new then storeZero n r s1 else s1
  | .acquiring =>
    if blocking then blockedReport n e new judgeFirst s1
    else if !before.anchor then firstReport n r s1
    else if new then observedZero n e judgeFirst s1 else s1
  | .seeking =>
    if blocking then blockedReport n e new judgeFirst s1
    else if new then observedZero n e judgeFirst s1 else s1
  | .inStep =>
    if blocking then blockedReport n e new judgeFirst s1
    else if new then observedZero n e judgeFirst s1 else s1

/-- The STU takes the earliest report of a site that waits for it; with none waiting nothing changes. -/
def takeStuReport (n : Nat) (judgeFirst : Bool) (s : State) : State :=
  match takeReport n s.handed.stu with
  | none => s
  | some (e, rest) => trackReport n e judgeFirst { s with handed := { s.handed with stu := rest } }

/-! ### Going OFFLINE and roster edits (R105, R107) -/

/-- The reports of a site that wait for the STU are dropped (assumption log 14). -/
def dropStuReports (n : Nat) (s : State) : State :=
  { s with handed := { s.handed with stu := s.handed.stu.filter (fun e => e.1 != n) } }

/-- The reports of a site that wait for any block are dropped (assumption log 14). -/
def dropReports (n : Nat) (s : State) : State :=
  { s with handed := {
      stu := s.handed.stu.filter (fun e => e.1 != n), cm := s.handed.cm.filter (fun e => e.1 != n)
      fu := s.handed.fu.filter (fun e => e.1 != n) } }

/-- The tracker of a site goes OFFLINE (R107). -/
def trackOffline (n : Nat) (cause : StateCause) (s : State) : State :=
  goOffline n cause (dropStuReports n s)

/-- The tracker's side of a change of line or address (R105). -/
def trackMoved (n : Nat) (s : State) : State :=
  let s1 := goOffline n .roster (dropReports n s)
  s1.setTracker n { s1.tracker n with lastZero := none, baseline := none }

/-- The tracker state that a change of group gives an online site (R105). -/
def stateAfterMove (s : State) (n : Nat) : TrackerState :=
  if (s.tracker n).state = .offline then .offline
  else if (currentTarget s n).isFree then .free
  else .acquiring

/-- The tracker's side of a change of group, after the GCU has moved the member (R105). The member counts for nothing
in its new group before. SITE-STATE carries the new group (R110; DESIGN CHOICE, assumption log 39). -/
def trackRegrouped (n : Nat) (s : State) : State :=
  let old := (s.tracker n).state
  let new := stateAfterMove s n
  let s1 := s.setTracker n { s.tracker n with previous := none, anchor := false, state := new }
  let s2 := raiseSiteState n (s1.groupOf n) old new .roster (tellGroup n false false s1)
  if new = .free ∧ old.isCoordinated then issueFreeing n s2 else s2

/-! ### SITE-STATUS (R111) -/

/-- The 39 bytes of an order in the ring (Table 12-8); fields of a FREE order or an absent basis are 0. -/
def Order.fields (o : Order) : List Field :=
  let b := o.basis.getD { zk := 0, lk := 0, zp := 0 }
  [.byte o.sequence.toNat, .code o.kind.code, .length (o.length.getD 0), .byte o.splits.length,
   .places o.splits, .length o.correction, slotField (o.target.map (·.slot)),
   .count ((o.target.map (·.instant)).getD 0), .count b.zk, .length b.lk, .count b.zp, .code o.cause.code]

/-- The optional fields of a last report (Table 12-8). -/
def lastReportParts (r : Option LastReport) : List (Option Bool × List Field) :=
  [opt (may (r.map (·.captured)) 0 (fun k => [.count k])),
   opt (may (r.map (·.cycleCounter.toNat)) 0 (fun k => [.byte k])),
   opt (may (r.map (·.elapsed)) 0 (fun k => [.length k])),
   opt (may ((r.bind (·.running)).map BitVec.toNat) 0 (fun k => [.byte k])),
   opt (may ((r.bind (·.held)).map BitVec.toNat) 0 (fun k => [.byte k])),
   opt (may (r.map (·.blocking)) false (fun k => [.mark k]))]

/-- A target identity: its slot by a sentinel, its switch instant (R204). -/
def identityParts (i : Option TargetId) : List (Option Bool × List Field) :=
  [sentinel [slotField (i.map (·.slot))], opt (may (i.map (·.instant)) 0 (fun k => [.count k]))]

/-- The optional fields of a last computation (Table 12-8). The reason is present with code none where the order was not
NOMINAL (DESIGN CHOICE, assumption log 40). -/
def computationParts (c : Option Computation) : List (Option Bool × List Field) :=
  let needs := c.bind (·.needs)
  let limits := c.bind (·.limits)
  [opt (may (c.bind (·.lagObserved)) 0 (fun k => [.length k])),
   opt (may (needs.map (·.lag)) 0 (fun k => [.length k])),
   opt (may (needs.map (·.shortenNeed)) 0 (fun k => [.length k])),
   opt (may (needs.map (·.lengthenNeed)) 0 (fun k => [.length k])),
   opt (may (limits.map (·.smax)) 0 (fun k => [.length k])),
   opt (may (limits.map (·.lmax)) 0 (fun k => [.length k])),
   opt (may (limits.map (·.shortenCycles)) (some 0) (fun k => [.byte (cyclesByte k)])),
   opt (may (limits.map (·.lengthenCycles)) (some 0) (fun k => [.byte (cyclesByte k)])),
   opt (may (c.map (·.kind.code)) 0 (fun k => [.code k])),
   opt (may (c.map (·.correction)) 0 (fun k => [.length k])),
   opt (may (c.map (·.reason.code)) 0 (fun k => [.code k]))]

/-- The optional fields of SITE-STATUS (Table 12-8). -/
def siteStatusTail (s : State) (n : Nat) : List Field :=
  let t := s.tracker n
  let target := (targetInForce s n s.now).plan
  withPresence
    ([opt (may ((s.monitorOf n).sign.map DevSign.code) 0 (fun k => [.code k])),
      opt (may t.lastZero 0 (fun k => [.count k])),
      opt (may (t.baseline.map BitVec.toNat) 0 (fun k => [.byte k])),
      opt (may (t.stateAtZero.map TrackerState.code) 0 (fun k => [.code k])),
      opt (may (t.runningAtZero.map BitVec.toNat) 0 (fun k => [.byte k]))]
    ++ lastReportParts t.lastReport
    ++ [opt (may t.lagObserved 0 (fun k => [.length k]))]
    ++ identityParts (target.map (·.id))
    ++ [opt (may (target.map (·.offset)) 0 (fun k => [.length k])),
        opt (may (target.map (·.cycle)) 0 (fun k => [.length k])),
        opt (may (target.map (·.window)) 0 (fun k => [.length k]))]
    ++ identityParts (t.previous.bind AnyTarget.id)
    ++ [opt (always [.byte t.nextSequence.toNat]),
        opt (may ((s.linkOf n).pendingOrder.map (·.sequence.toNat)) 0 (fun k => [.byte k]))]
    ++ identityParts t.seekBlocked
    ++ computationParts t.computation
    ++ [opt (always (counted t.ring Order.fields))])

/-- SITE-STATUS (R111). The ATTN level, which R168 has it show and Table 12-8 gives no place, stands as a mark after the
last field of that table (DESIGN CHOICE, assumption log 42). -/
def serveSiteStatus (tag : Byte) (n : Nat) (s : State) : State :=
  let kind := Kind.siteStatus
  if badSite n then refuse kind tag .outOfRange s
  else match s.rosterEntry n with
    | none => refuse kind tag .notFound s
    | some e =>
      let t := s.tracker n
      answer kind tag .ok
        ([.site n, .byte e.line, .byte e.address, .byte e.group, .code t.state.code, .mark t.anchor,
          .mark (s.held n), .byte (s.monitorOf n).deviations, .flags (s.raisedFlags n)]
          ++ siteStatusTail s n ++ [.mark s.flags.attn]) s

end Sys2Proof.Machine
end

