-- ==== Sys2Proof/Machine/Lines.lean ====
section
/-! DEFINITION. The Field Line Controllers (chapter 8): line states and indicators, rounds, poll exchanges, the roster,
and the services of their requests. -/

namespace Sys2Proof.Machine

/-! ### Line state and indicators (R163, R164) -/

/-- The sites of a line that are ONLINE. -/
def onlineSites (s : State) (l : Nat) : List Nat := (s.sitesOn l).filter (fun n => (s.linkOf n).online)

/-- The line state that the enabled setting, the entries and the online marks give (R163). -/
def derivedLineState (s : State) (l : Nat) : LineState :=
  let entries := (s.sitesOn l).length
  let online := (onlineSites s l).length
  if (s.line l).settings.enabled = false then .disabled
  else if entries = 0 then .idle
  else if online = entries then .active
  else if online = 0 then .down
  else .degraded

/-- LINE-STATE (R163). -/
def raiseLineState (l : Nat) (old new : LineState) (site : Option Nat) (s : State) : State :=
  raise .lineState
    ([.byte l, .code old.code, .code new.code, .byte (s.sitesOn l).length, .byte (onlineSites s l).length]
      ++ withPresence [opt (may site 0 (fun n => [.site n])), opt (always [.count s.now])]) s

/-- The FLC recomputes the line state; a change raises LINE-STATE, naming the site that caused it (R163). -/
def recomputeLine (l : Nat) (site : Option Nat) (s : State) : State :=
  let old := (s.line l).state
  let new := derivedLineState s l
  if old = new then s
  else raiseLineState l old new site (s.setLine l { s.line l with state := new })

/-- The condition of an indicator mode (R164). -/
def indicatorAsserted (v : LineSettings) (st : LineState) : Bool :=
  match v.mode with
  | 0 => decide (st = .active)
  | 1 => decide (st = .active) || decide (st = .degraded)
  | 2 => decide (st = .active) || decide (st = .degraded) || decide (st = .down)
  | _ => v.manual

/-- The line settings have been loaded since the last reset (R164). -/
def settingsLoaded (s : State) : Bool :=
  match s.startUp.phase with
  | .held => false
  | .loading => s.startUp.rebuilt.isSome
  | .running => true

/-- The level of a LINE_OK pin as driven, true for high (R164). -/
def lineOkPin (s : State) (l : Nat) : Bool :=
  let v := (s.line l).settings
  settingsLoaded s && (indicatorAsserted v (s.line l).state != v.activeLow)

/-- The level of a DE pin (R155): asserted while a poll is being sent. -/
def dePin (s : State) (l : Nat) : Bool := (s.line l).exchange.any (fun x => decide (x.phase = .sending))

/-! ### Rounds (R153, R154) -/

/-- The address of a site. -/
def addressOf (s : State) (n : Nat) : Nat := ((s.rosterEntry n).map (·.address)).getD 0

/-- The poll list of a round that starts now: sites in ascending address order, OFFLINE ones in round 0 only. -/
def pollList (s : State) (l : Nat) : List Nat :=
  sortBy (addressOf s) ((s.sitesOn l).filter (fun n => (s.line l).roundCounter = 0 || (s.linkOf n).online))

/-- A round starts on a line that is enabled and has entries, while the part is RUNNING (R153, R166). -/
def startRound (l : Nat) (s : State) : State :=
  if s.isRunning && (s.line l).settings.enabled && !(s.sitesOn l).isEmpty then
    let list := pollList s l
    s.setLine l { s.line l with round := some { remaining := list, formedEmpty := list.isEmpty } }
  else s.setLine l { s.line l with round := none }

/-- The round of a line ends: the counter advances, and the next round starts where the line still polls (R153). -/
def finishRound (l : Nat) (s : State) : State :=
  startRound l (s.setLine l { s.line l with roundCounter := ((s.line l).roundCounter + 1) % 8, round := none })

/-- The round under way has nothing left to do: its list is used up, no exchange is in flight, and it was not formed
empty. The list may be used up by roster edits alone, before any exchange (R154): R153 names no end of such a round, which
ends at once (DESIGN CHOICE, assumption log 30). -/
def roundDone (v : Line) : Bool :=
  v.exchange.isNone && v.round.any (fun r => r.remaining.isEmpty && !r.formedEmpty)

/-- The round ends once its last exchange has ended (R153), or once an edit leaves it nothing to poll (DESIGN CHOICE, assumption
log 30). -/
def finishIfDone (l : Nat) (s : State) : State := if roundDone (s.line l) then finishRound l s else s

/-- A round that was formed empty ends (R153). -/
def endEmptyRound (l : Nat) (s : State) : State :=
  let v := s.line l
  if v.exchange.isNone && v.round.any (·.formedEmpty) then finishRound l s else s

/-- The outcome of an exchange with a site whose roster entry has been edited is discarded (R154). -/
def Line.voidExchange (n : Nat) (v : Line) : Line :=
  { v with exchange := v.exchange.map (fun x => if x.site = n then { x with void := true } else x) }

/-- A line after an edit of a site: an exchange with that site is void (R154). -/
def voidExchange (l n : Nat) (s : State) : State := s.setLine l ((s.line l).voidExchange n)

/-- An exchange with a site becomes void, and the site leaves the round's list (R154). -/
def dropFromRound (n : Nat) (v : Line) : Line :=
  { v.voidExchange n with
    round := v.round.map (fun r => { r with remaining := r.remaining.filter (· != n) }) }

/-- A site has left a line's poll list (R153, R154); a line without entries ends its round at once
(DEDUCED, assumption log 30). -/
def leavePollList (l n : Nat) (s : State) : State :=
  let s1 := s.setLine l (dropFromRound n (s.line l))
  if (s1.sitesOn l).isEmpty ∧ (s1.line l).round.isSome then finishRound l s1 else finishIfDone l s1

/-- A site has come onto a line (R153): a line that polls no round begins one. -/
def joinPollList (l : Nat) (s : State) : State :=
  if (s.line l).round.isNone then startRound l s else s

/-! ### Exchanges (R155 to R160) -/

/-- A poll exchange begins with the site at the head of the round's remaining list (R155). -/
def sendPoll (l : Nat) (s : State) : State :=
  let v := s.line l
  match v.exchange, v.round with
  | none, some r =>
    match r.remaining with
    | [] => s
    | n :: rest =>
      let k := s.linkOf n
      let x : Exchange :=
        { site := n, address := addressOf s n, poll := pollBytes (addressOf s n) k.pendingOrder k.relay,
          bitRate := v.settings.bitRate, timeout := v.settings.timeout, phase := .sending, void := false }
      let s1 := s.setLine l { v with exchange := some x, round := some { r with remaining := rest } }
      s1.setLinkOf n { k with relayInFlight := k.relay }
  | _, _ => s

/-- The exchange of a line moves on to a phase. -/
def setPhase (l : Nat) (x : Exchange) (p : ExchangePhase) (s : State) : State :=
  s.setLine l { s.line l with exchange := some { x with phase := p } }

/-- The last stop bit of a poll ends (R155). -/
def pollEnds (l : Nat) (s : State) : State :=
  match (s.line l).exchange with
  | some x => if x.phase = .sending then setPhase l x .waiting s else s
  | none => s

/-- A report's start bit arrives within the reply timeout: the count is captured (R156). -/
def reportStarts (l : Nat) (s : State) : State :=
  match (s.line l).exchange with
  | some x => if x.phase = .waiting then setPhase l x (.receiving s.now) s else s
  | none => s

/-- The last-fault record and the fault total at a miss (R160). -/
def latchFault (l : Nat) (f : FaultRecord) (s : State) : State :=
  s.setLine l { s.line l with lastFault := some f, faultTotal := countUp 65535 (s.line l).faultTotal }

/-- A miss (R159), with the source address that a WRONG-ADDRESS report carried. -/
def takeMiss (l : Nat) (x : Exchange) (outcome : ExchangeOutcome) (source : Option Nat) (s : State) :
    State :=
  let n := x.site
  let k := s.linkOf n
  let misses := countUp 3 k.misses
  let s1 := s.setLinkOf n { k with misses := misses, lastOutcome := some outcome }
  let s2 := latchFault l { outcome := outcome, site := n, address := x.address, source := source,
                           count := s.now, misses := misses } s1
  if misses = 3 ∧ k.online then
    let s3 := s2.setLinkOf n { s2.linkOf n with online := false }
    recomputeLine l (some n) (trackOffline n .misses s3)
  else s2

/-- The pending-order slot after a good report (R161). -/
def acknowledge (pending : Option Order) (held : Option Byte) : Option Order :=
  pending.filter (fun o => decide (held ≠ some o.sequence))

/-- The link record after a good report (R158 steps 1 to 3, R162). -/
def LinkRecord.afterGood (k : LinkRecord) (r : Report) : LinkRecord :=
  { k with
    online := true, misses := 0, pendingOrder := acknowledge k.pendingOrder r.held,
    relay := k.relay &&& ~~~(r.relayAck &&& k.relayInFlight), lastOutcome := some .good }

/-- A good report is handed to the STU, the CM and the FU (R158 step 4). -/
def handOverReport (n : Nat) (r : Report) (s : State) : State :=
  let e : StuReport := { report := r, disturbance := disturbedBy (disturbanceAhead s n) r }
  { s with handed := { stu := s.handed.stu ++ [(n, e)], cm := s.handed.cm ++ [(n, r)],
                       fu := s.handed.fu ++ [(n, r)] } }

/-- A GOOD report (R158). -/
def takeGood (l n : Nat) (r : Report) (s : State) : State :=
  let k := s.linkOf n
  let s1 := s.setLinkOf n (k.afterGood r)
  handOverReport n r (if k.online then s1 else recomputeLine l (some n) s1)

/-- The effects of an exchange's outcome; an exchange that an edit made void has none (R154). -/
def takeOutcome (l : Nat) (x : Exchange) (j : ReportJudgement) (s : State) : State :=
  if x.void then s
  else match j with
    | .good r => takeGood l x.site r s
    | .truncated => takeMiss l x .truncated none s
    | .badCrc => takeMiss l x .badCrc none s
    | .wrongAddress a => takeMiss l x .wrongAddress (some a) s

/-- The exchange of a line is over. -/
def clearExchange (l : Nat) (s : State) : State := s.setLine l { s.line l with exchange := none }

/-- The reply timeout runs out: NO-REPLY (R156). -/
def replyTimesOut (l : Nat) (s : State) : State :=
  match (s.line l).exchange with
  | some x =>
    if x.phase = .waiting then
      let s1 := clearExchange l s
      finishIfDone l (if x.void then s1 else takeMiss l x .noReply none s1)
    else s
  | none => s

/-- Reception of a report ends with the bytes received (R156, R157). -/
def receptionEnds (l : Nat) (bytes : List Byte) (s : State) : State :=
  match (s.line l).exchange with
  | some x =>
    match x.phase with
    | .receiving t => finishIfDone l (takeOutcome l x (judgeReport x.address t bytes) (clearExchange l s))
    | .sending => s
    | .waiting => s
  | none => s

/-! ### Disabling and enabling a line (R151, R152) -/

/-- A site of a line that is disabled (R151 steps 2 and 3). -/
def disableSite (n : Nat) (s : State) : State :=
  let k := s.linkOf n
  let s1 := s.setLinkOf n { k with
    online := false, misses := 0, pendingOrder := none, relay := 0, relayInFlight := 0 }
  if k.online then trackOffline n .lineDisabled s1 else s1

/-- A line is disabled (R151). Its sites are taken in rising site number (DESIGN CHOICE, assumption log 46). -/
def disableLine (l : Nat) (s : State) : State :=
  let s1 := s.setLine l { s.line l with exchange := none, round := none }
  recomputeLine l none (forEach (s1.sitesOn l) disableSite s1)

/-- A line is enabled (R152). -/
def enableLine (l : Nat) (s : State) : State :=
  startRound l (recomputeLine l none (s.setLine l { s.line l with roundCounter := 0 }))

/-- A line's settings are replaced (R149, R150). -/
def applySettings (l : Nat) (v : LineSettings) (s : State) : State :=
  let old := (s.line l).settings.enabled
  let s1 := s.setLine l { s.line l with settings := v }
  match old, v.enabled with
  | true, false => disableLine l s1
  | false, true => enableLine l s1
  | true, true => s1
  | false, false => s1

/-! ### Roster edits (R145 to R147) -/

/-- The fields of a roster entry. -/
def RosterEntry.fields (e : RosterEntry) : List Field := [.byte e.line, .byte e.address, .byte e.group]

/-- An entry that fills the place of an absent one. -/
def RosterEntry.absent : RosterEntry := { line := 0, address := 0, group := 0 }

/-- The other site with a line and address, or none (R145 case 4). -/
def siteAt (s : State) (n line address : Nat) : Option Nat :=
  ((s.sitesWhere (fun e => e.line == line && e.address == address)).filter (· != n)).head?

/-- The number of entries of a list other than a site's own. -/
def othersIn (l : List Nat) (n : Nat) : Nat := (l.filter (· != n)).length

/-- A new site (R146): entry, link record, group, tracker, line. -/
def addSite (n : Nat) (e : RosterEntry) (s : State) : State :=
  let s1 := ((s.setRosterEntry n (some e)).setLinkOf n LinkRecord.reset).setTracker n Tracker.reset
  recomputeLine e.line (some n) (joinPollList e.line (joinGroup e.group s1))

/-- The link record of a site whose line or address changes (R146). -/
def LinkRecord.moved (k : LinkRecord) : LinkRecord :=
  { k with online := false, misses := 0, pendingOrder := none, relayInFlight := 0, lastOutcome := none }

/-- A site's line or address changes (R146, R105). SITE-STATE comes first, then the old line's state is recomputed, then
the new line's (DESIGN CHOICE, assumption log 46). -/
def moveSite (n : Nat) (old new : RosterEntry) (s : State) : State :=
  if old.line = new.line ∧ old.address = new.address then s
  else
    let entry := { old with line := new.line, address := new.address }
    let s1 := (s.setRosterEntry n (some entry)).setLinkOf n (s.linkOf n).moved
    let s2 := trackMoved n s1
    let s3 := joinPollList new.line (leavePollList old.line n s2)
    if old.line = new.line then recomputeLine new.line (some n) s3
    else recomputeLine new.line (some n) (recomputeLine old.line (some n) s3)

/-- A site's group changes (R146, R76, R77, R105). -/
def regroupSite (n : Nat) (old new : RosterEntry) (s : State) : State :=
  if old.group = new.group then s
  else
    let inStep := countsInStep s n
    let s1 := voidExchange new.line n (s.setRosterEntry n (some new))
    trackRegrouped n (joinGroup new.group (leaveGroup old.group n inStep s1))

/-- An accepted WRITE-SITE (R146): a move of line or address first, then a change of group (DESIGN CHOICE, assumption log
46). -/
def putSite (n : Nat) (e : RosterEntry) (s : State) : State :=
  match s.rosterEntry n with
  | none => addSite n e s
  | some old => regroupSite n old e (moveSite n old e s)

/-- WRITE-SITE (R145, R146). A refusal names the field counted from 0: site, line, address, group. -/
def serveWriteSite (tag : Byte) (n line address group : Nat) (s : State) : State :=
  let kind := Kind.writeSite
  match siteFault n line address group with
  | some place => answer kind tag .outOfRange [.named place] s
  | none =>
    if s.storing then refuse kind tag .busy s
    else match siteAt s n line address with
      | some m => answer kind tag .duplicate [.site m] s
      | none =>
        if Config.sitesPerLine ≤ othersIn (s.sitesOn line) n then answer kind tag .noSpace [.named 1] s
        else if group ≠ 0 ∧ Config.membersPerGroup ≤ othersIn (s.membersOf group) n then
          answer kind tag .noSpace [.named 3] s
        else
          let e : RosterEntry := { line := line, address := address, group := group }
          answer kind tag .ok
            (.site n :: withPresence
              [opt (may (s.rosterEntry n) RosterEntry.absent RosterEntry.fields), opt (always e.fields)])
            (putSite n e s)

/-- An accepted removal (R147, R105, R122, R169). SITE-STATE carries the group and the hold mark as they stood before it
(R110; DESIGN CHOICE, assumption log 39) and comes before LINE-STATE (DESIGN CHOICE, assumption log 46). -/
def dropSite (n : Nat) (e : RosterEntry) (s : State) : State :=
  let old := (s.tracker n).state
  let inStep := countsInStep s n
  let s1 := dropReports n ((s.setRosterEntry n none).setLinkOf n LinkRecord.reset)
  let s2 := leavePollList e.line n s1
  let s3 := leaveGroup e.group n inStep s2
  let s4 := raiseSiteState n e.group old .offline .roster (s3.setTracker n Tracker.reset)
  recomputeLine e.line (some n) (forgetFlags n (forgetMonitor n s4))

/-- REMOVE-SITE (R147). R173 has the reply of a removal carry the ATTN level after it: it follows the entry removed as a mark
(DESIGN CHOICE, assumption log 49). -/
def serveRemoveSite (tag : Byte) (n : Nat) (s : State) : State :=
  let kind := Kind.removeSite
  if badSite n then refuse kind tag .outOfRange s
  else if s.storing then refuse kind tag .busy s
  else match s.rosterEntry n with
    | none => refuse kind tag .notFound s
    | some e =>
      let s1 := dropSite n e s
      answer kind tag .ok (e.fields ++ [.mark s1.flags.attn]) s1

/-- READ-SITE (R148). The miss count, which Table 12-1 does not type, is one byte (DESIGN CHOICE, assumption log 17). -/
def serveReadSite (tag : Byte) (n : Nat) (s : State) : State :=
  let kind := Kind.readSite
  if badSite n then refuse kind tag .outOfRange s
  else match s.rosterEntry n with
    | none => refuse kind tag .notFound s
    | some e =>
      let k := s.linkOf n
      answer kind tag .ok
        (e.fields ++ [.mark k.online, .byte k.misses] ++ withPresence
          [opt (may (k.pendingOrder.map (·.sequence.toNat)) 0 (fun v => [.byte v])),
           opt (may (k.pendingOrder.map (·.kind.code)) 0 (fun v => [.code v])),
           opt (may (k.pendingOrder.bind (·.length)) 0 (fun v => [.length v])),
           opt (always [.flags k.relay]), opt (always [.flags k.relayInFlight]),
           opt (may (k.lastOutcome.map ExchangeOutcome.code) 0 (fun v => [.code v])),
           opt (always [.code (s.line e.line).state.code])]) s

/-! ### Services of the lines -/

/-- LINE-CONTROL (R150). -/
def serveLineControl (tag : Byte) (l read : Nat) (r : RawSettings) (s : State) : State :=
  let kind := Kind.lineControl
  let done (s' : State) : State := answer kind tag .ok
    ((s.line l).settings.fields ++ (s'.line l).settings.fields ++ [.code (s'.line l).state.code]) s'
  if decide (7 < l) || badMark read then refuse kind tag .outOfRange s
  else if read = 1 then done s
  else match settingsFault r with
    | some place => answer kind tag .outOfRange [.named place] s
    | none =>
      if s.storing then refuse kind tag .busy s
      else done (applySettings l (storedSettings r) s)

/-- The optional fields of a last-fault record (R160). The miss count, which Table 12-1 does not type, is one byte (DESIGN
CHOICE, assumption log 17). -/
def faultParts (f : Option FaultRecord) : List (Option Bool × List Field) :=
  [opt (may (f.map (·.outcome.code)) 0 (fun v => [.code v])), opt (may (f.map (·.site)) 0 (fun v => [.site v])),
   opt (may (f.map (·.address)) 0 (fun v => [.byte v])), opt (may (f.bind (·.source)) 0 (fun v => [.byte v])),
   opt (may (f.map (·.count)) 0 (fun v => [.count v])), opt (may (f.map (·.misses)) 0 (fun v => [.byte v]))]

/-- LINE-STATUS (R165). Table 12-1 types neither the round counter, which is one byte, nor the LINE_OK level, which is sent
as a mark: 1 for a high pin, 0 for a low one (DESIGN CHOICE, assumption log 17). -/
def serveLineStatus (tag : Byte) (l clear : Nat) (s : State) : State :=
  let kind := Kind.lineStatus
  if decide (7 < l) || badMark clear then refuse kind tag .outOfRange s
  else
    let v := s.line l
    let entries := (s.sitesOn l).length
    let online := (onlineSites s l).length
    let s1 := if clear = 1 then s.setLine l { v with lastFault := none, faultTotal := 0 } else s
    answer kind tag .ok
      ([.code v.state.code] ++ v.settings.fields ++ [.mark (lineOkPin s l), .byte entries, .byte online,
          .byte (entries - online), .byte v.roundCounter]
        ++ withPresence
          ([opt (may (v.exchange.map (·.site)) 0 (fun n => [.site n]))] ++ faultParts v.lastFault
            ++ [opt (always [.total v.faultTotal])])) s1

/-- SIGNAL-SITE (R174). -/
def serveSignalSite (tag : Byte) (n : Nat) (flags : Byte) (s : State) : State :=
  let kind := Kind.signalSite
  if badSite n then answer kind tag .outOfRange [.named 0] s
  else if flags = 0 then answer kind tag .outOfRange [.named 1] s
  else match s.rosterEntry n with
    | none => refuse kind tag .notFound s
    | some e =>
      let k := s.linkOf n
      answer kind tag .ok
        [.flags k.relay, .flags (k.relay ||| flags), .flags k.relayInFlight, .mark k.online,
         .code (s.line e.line).state.code]
        (s.setLinkOf n { k with relay := k.relay ||| flags })

end Sys2Proof.Machine
end

