-- ==== Sys2Proof/Machine/Store.lean ====
section
/-! DEFINITION. The Nonvolatile Store (11.2, 12.8): the content of each section, the store operation, and what a section
gives when it is loaded. -/

namespace Sys2Proof.Machine

/-! ### Content (12.8) -/

/-- The roster entries in ascending site order. -/
def rosterEntries (s : State) : List (Nat × RosterEntry) :=
  s.roster.filterMap (fun e => e.2.map (fun v => (e.1, v)))

/-- The roster section. -/
def rosterContent (s : State) : List Byte :=
  leBytes 2 (rosterEntries s).length
    ++ (rosterEntries s).flatMap (fun e => fieldBytes (.site e.1 :: e.2.fields))

/-- The 7-byte record of a line in the settings section. -/
def lineRecord (s : State) (l : Nat) : List Byte := fieldBytes (s.line l).settings.fields ++ [0]

/-- The settings section. -/
def settingsContent (s : State) : List Byte :=
  (List.range Config.lines).flatMap (lineRecord s)
    ++ fieldBytes [.length s.monitor.tolerance, .code s.monitor.limitCode, .flags s.flags.mask]

/-- The plans section: each POSTED slot in ascending order (R39). -/
def plansContent (s : State) : List Byte :=
  let l := slotsInState s .posted
  leBytes 1 l.length ++ l.flatMap (fun n => leBytes 1 n ++ (s.slot n).recordBytes)

/-- The calendar entries in ascending id order. -/
def calendarEntries (s : State) : List (Nat × EventEntry) :=
  s.resolver.events.filterMap (fun e => e.2.map (fun v => (e.1, v)))

/-- One program of the timetables section. -/
def programRecord (s : State) (p : Nat) : List Byte := fieldBytes (counted (s.program p) ProgramEntry.fields)

/-- One week table of the timetables section. -/
def weekRecord (s : State) (g : Nat) : List Byte := (padTo 7 (s.week g)).flatMap (leBytes 1)

/-- The timetables section. -/
def timetablesContent (s : State) : List Byte :=
  (upTo Config.programs).flatMap (programRecord s) ++ (upTo Config.groups).flatMap (weekRecord s)
    ++ leBytes 1 (calendarEntries s).length
    ++ (calendarEntries s).flatMap (fun e => fieldBytes (eventFields e.1 e.2))

/-- Content of the section at a place of Table 11-1, counted from 0. -/
def sectionContent (s : State) : Nat → List Byte
  | 0 => rosterContent s
  | 1 => settingsContent s
  | 2 => plansContent s
  | _ => timetablesContent s

/-- The number of items written in a section (R197): program entries, week tables and calendar entries for the
timetables (DEDUCED, assumption log 21). -/
def sectionItems (s : State) : Nat → Nat
  | 0 => (rosterEntries s).length
  | 1 => Config.lines
  | 2 => (slotsInState s .posted).length
  | _ => sumOf ((upTo Config.programs).map (fun p => (s.program p).length)) + Config.groups
      + (calendarEntries s).length

/-! ### The store operation (R196, R197) -/

/-- The store with the section at a place replaced. -/
def NvStore.put (v : NvStore) (place : Nat) (c : Section) : NvStore :=
  match place with
  | 0 => { v with roster := c }
  | 1 => { v with settings := c }
  | 2 => { v with plans := c }
  | 3 => { v with timetables := c }
  | _ => v

/-- The bytes of the check of a section's content, low byte first (R203). -/
def checkBytes (content : List Byte) : List Byte := leBytes 4 (crc32 content).toNat

/-- A section as it is left when its writing is over: with its check where everything reads back (R197; DESIGN CHOICE,
assumption log 34). -/
def writtenSection (content : List Byte) (readsBack : Bool) : Section :=
  { content := content, check := if readsBack then checkBytes content else [] }

/-- Result code of a section at store: STORED, FAULT (Table 12-2). -/
def storeResult (stored : Bool) : Nat := if stored then 0 else 1

/-- A section of the store operation is written, and the next one erased (R197). -/
def writeSection (readsBack : Bool) (s : State) : State :=
  match s.store.operation with
  | none => s
  | some o =>
    let k := o.finished.length
    if 4 ≤ k then s
    else
      let v := (s.store.put k (writtenSection (sectionContent s k) readsBack)).put (k + 1) Section.erased
      let o' := { o with finished := o.finished ++ [(readsBack, sectionItems s k)] }
      { s with store := { v with operation := some o' } }

/-- STORE-DONE (R197). -/
def raiseStoreDone (o : StoreOperation) (s : State) : State :=
  raise .storeDone
    (o.finished.flatMap (fun r => [.code (storeResult r.1), .total r.2]) ++ [.count o.accepted, .count s.now]) s

/-- The store operation ends once its four sections are written (R197). -/
def endStore (s : State) : State :=
  match s.store.operation with
  | none => s
  | some o =>
    if o.finished.length < 4 then s
    else raiseStoreDone o { s with store := { s.store with operation := none } }

/-- STORE-TABLES (R196); the first section is erased (R197). -/
def serveStoreTables (tag : Byte) (s : State) : State :=
  if s.storing then refuse Kind.storeTables tag .busy s
  else answer Kind.storeTables tag .ok [.count s.now]
    { s with store := { s.store with
      roster := Section.erased, operation := some { accepted := s.now, finished := [] } } }

/-! ### Loading a section (R199, R207) -/

/-- `k` records of a fixed size from the front of the bytes. -/
def chunks (size : Nat) : Nat → List Byte → List (List Byte)
  | 0, _ => []
  | k + 1, l => l.take size :: chunks size k (l.drop size)

/-- A stored roster entry. -/
def rosterItem (l : List Byte) : Nat × RosterEntry :=
  (numberAt 2 0 l, { line := numberAt 1 2 l, address := numberAt 1 3 l, group := numberAt 1 4 l })

/-- A list of roster entries keeps every range and limit of R144 and R145, and names no site twice (DEDUCED, assumption
log 26). -/
def rosterFits (es : List (Nat × RosterEntry)) : Bool :=
  es.all (fun e => (siteFault e.1 e.2.line e.2.address e.2.group).isNone)
    && (firstRepeat (es.map (·.1))).isNone
    && (firstRepeat (es.map (fun e => e.2.line * 256 + e.2.address))).isNone
    && (List.range Config.lines).all
      (fun l => decide ((es.filter (fun e => e.2.line == l)).length ≤ Config.sitesPerLine))
    && (upTo Config.groups).all
      (fun g => decide ((es.filter (fun e => e.2.group == g)).length ≤ Config.membersPerGroup))

/-- The roster of a section's content, or none where it is INVALID. Sites out of ascending order do not make it so (DEDUCED,
assumption log 26). -/
def parseRoster (l : List Byte) : Option (List (Nat × RosterEntry)) :=
  let k := numberAt 2 0 l
  let es := (chunks 5 k (l.drop 2)).map rosterItem
  if l.length = 2 + 5 * k ∧ rosterFits es then some es else none

/-- What the settings section holds. -/
structure StoredSettings where
  lines : List LineSettings
  tolerance : Nat
  limitCode : Nat
  mask : Byte
deriving DecidableEq, Repr

/-- The settings of a section's content, or none where it is INVALID. The last byte of a line record, stored as 0, is not
judged (DEDUCED, assumption log 26). -/
def parseSettings (l : List Byte) : Option StoredSettings :=
  let raw := (chunks 7 Config.lines l).map (settingsAt 0)
  let tolerance := numberAt 2 56 l
  let limitCode := numberAt 1 58 l
  if l.length = 60 ∧ raw.all (fun r => (settingsFault r).isNone) ∧ ¬ outside 1 50 tolerance
      ∧ limitCode ≤ 7 then
    some { lines := raw.map storedSettings, tolerance := tolerance, limitCode := limitCode, mask := l.getD 59 0 }
  else none

/-- A stored plan: slot number, header, entries. -/
structure StoredPlan where
  slot : Nat
  header : RawHeader
  entries : List RawEntry
deriving DecidableEq, Repr

/-- `k` stored plans from the front of the bytes, with the bytes left. -/
def plansAt : Nat → List Byte → List StoredPlan × List Byte
  | 0, l => ([], l)
  | k + 1, l =>
    let h := headerAt 1 l
    let r := plansAt k (l.drop (11 + 22 * h.count))
    ({ slot := numberAt 1 0 l, header := h, entries := entriesAt h.count 11 l } :: r.1, r.2)

/-- The number of bytes that stored plans take. -/
def plansSize (ps : List StoredPlan) : Nat := sumOf (ps.map (fun p => 11 + 22 * p.header.count))

/-- A stored plan keeps every range of Tables 2-1 and 2-2. -/
def planFits (p : StoredPlan) : Bool :=
  decide (p.slot < Config.slots) && (headerFault p.header).isNone && !headerClamped p.header
    && !p.entries.any badEntry

/-- The plans of a section's content, or none where it is INVALID. A slot number or a plan number twice makes it so; slots out
of ascending order do not (DEDUCED, assumption log 26). -/
def parsePlans (l : List Byte) : Option (List StoredPlan) :=
  let ps := (plansAt (numberAt 1 0 l) (l.drop 1)).1
  if 1 ≤ l.length ∧ l.length = 1 + plansSize ps ∧ ps.all planFits
      ∧ (firstRepeat (ps.map (·.slot))).isNone ∧ (firstRepeat (ps.map (·.header.plan))).isNone then some ps
  else none

/-- `k` stored programs from the front of the bytes, with the bytes left. -/
def programsAt : Nat → List Byte → List (List RawProgramEntry) × List Byte
  | 0, l => ([], l)
  | k + 1, l =>
    let n := numberAt 1 0 l
    let r := programsAt k (l.drop (1 + 4 * n))
    (programEntriesAt n 1 l :: r.1, r.2)

/-- The number of bytes that stored programs take. -/
def programsSize (ps : List (List RawProgramEntry)) : Nat := sumOf (ps.map (fun p => 1 + 4 * p.length))

/-- A stored program keeps the ranges and the ordering of R41. -/
def programFits (p : List RawProgramEntry) : Bool :=
  decide (p.length ≤ Config.entriesPerProgram) && !p.any badProgramEntry
    && (firstUnordered (p.map (·.start))).isNone

/-- A stored calendar entry with its write sequence number. -/
structure StoredEvent where
  event : RawEvent
  sequence : Nat
deriving DecidableEq, Repr

/-- `k` stored calendar entries from the front of the bytes, each in the READ-EVENT form. -/
def eventsAt : Nat → List Byte → List StoredEvent
  | 0, _ => []
  | k + 1, l =>
    let e := eventOf (l.take 1 ++ l.drop 5)
    { event := e, sequence := numberAt 4 1 l } :: eventsAt k (l.drop (20 + numberAt 1 19 l))

/-- The number of bytes that stored calendar entries take. -/
def eventsSize (es : List StoredEvent) : Nat := sumOf (es.map (fun e => 20 + e.event.groups.length))

/-- A stored calendar entry keeps the ranges of Table 3-1. -/
def eventFits (e : StoredEvent) : Bool :=
  (eventFault e.event).isNone && (firstRepeat e.event.groups).isNone && decide (e.sequence ≠ 0)

/-- What the timetables section holds. -/
structure StoredTimetables where
  programs : List (List RawProgramEntry)
  weeks : List (List Nat)
  events : List StoredEvent
deriving DecidableEq, Repr

/-- The timetables of a section's content, or none where it is INVALID. An entry id twice makes it so; ids out of ascending
order do not (DEDUCED, assumption log 26). -/
def parseTimetables (l : List Byte) : Option StoredTimetables :=
  let r := programsAt Config.programs l
  let weeks := (chunks 7 Config.groups r.2).map (numbersAt 1 7 0)
  let rest := r.2.drop (7 * Config.groups)
  let es := eventsAt (numberAt 1 0 rest) (rest.drop 1)
  if l.length = programsSize r.1 + 7 * Config.groups + 1 + eventsSize es ∧ r.1.all programFits
      ∧ weeks.all (fun w => w.all (fun p => decide (p ≤ Config.programs))) ∧ es.all eventFits
      ∧ (firstRepeat (es.map (·.event.id))).isNone then
    some { programs := r.1, weeks := weeks, events := es }
  else none

/-- The section check holds: its four bytes, read low byte first, are the CRC-32 of the content (R195, R203). -/
def Section.sound (c : Section) : Bool :=
  decide (c.check.length = 4) && decide (leNumber c.check = (crc32 c.content).toNat)

/-- The result of a section at load, and what it holds where it is LOADED (R199). -/
def loadSection {α : Type} (c : Section) (parse : List Byte → Option α) : LoadResult × Option α :=
  if c.sound then
    match parse c.content with
    | some v => (.loaded, some v)
    | none => (.invalid, none)
  else (.checkFailed, none)

end Sys2Proof.Machine
end

