-- ==== Sys2Proof/Machine/StartUp.lean ====
section
/-! DEFINITION. The Start-up Control (chapter 11): resets, and the steps of start-up. -/

namespace Sys2Proof.Machine

/-! ### Resets (R193, R194) -/

/-- The planning-link rate code that the straps give (R176). -/
def rateOf (p : Pins) : Nat := 2 * markCode p.rate1 + markCode p.rate0

/-- The part as any reset leaves it, in the given phase and at the straps' rate: the Time Base, the retained domain, the
store sections, the one-time storage, the pins and the queue of commands stand; all else is at its after-reset
values. -/
def afterReset (phase : Phase) (s : State) : State :=
  { State.reset with
    time := s.time, retained := s.retained,
    floors := { FloorStore.delivered with entries := s.floors.entries, lockMark := s.floors.lockMark },
    link := LinkController.reset (rateOf s.pins),
    store := { s.store with operation := none },
    startUp := { phase := phase, rebuilt := none },
    pins := s.pins, pending := s.pending }

/-- The reset cause is set (R193). -/
def setCause (c : ResetCause) (s : State) : State := { s with retained := { s.retained with cause := c } }

/-- The retained domain is cleared (R194). -/
def clearRetained (s : State) : State :=
  { s with time := TimeBase.powerOn, retained := { s.retained with resume := [], holds := [] } }

/-- The rate straps are read (R176). -/
def setStraps (rate1 rate0 : Bool) (s : State) : State :=
  { s with pins := { s.pins with rate1 := rate1, rate0 := rate0 } }

/-- POWER-ON (R193): with RESET asserted the part stays in reset, and otherwise it is LOADING at once (assumption log
10). -/
def powerOnReset (p : PinLevels) (cut : ProgramCut) (s : State) : State :=
  let s1 := setCause .powerOn (clearRetained (cutProgramming cut s))
  let s2 := setStraps p.rate1 p.rate0 { s1 with pins := { s1.pins with commissionEn := p.commissionEn } }
  afterReset (if p.reset then .held else .loading) s2

/-- RESET is asserted (R193); while it is held already nothing changes. -/
def resetPinReset (cut : ProgramCut) (s : State) : State :=
  if s.startUp.phase = .held then s
  else afterReset .held (setCause .resetPin (cutProgramming cut s))

/-- RESET is released (R198): the straps are read and the part is LOADING. -/
def releaseReset (rate1 rate0 : Bool) (s : State) : State :=
  if s.startUp.phase = .held then
    let s1 := setStraps rate1 rate0 s
    { s1 with link := LinkController.reset (rateOf s1.pins), startUp := { phase := .loading, rebuilt := none } }
  else s

/-- A RESTART-REQUEST reset (R193, R176), released at once (DESIGN CHOICE, assumption log 10): the straps are read. -/
def restartReset (rate1 rate0 : Bool) (cut : ProgramCut) (s : State) : State :=
  afterReset .loading (setStraps rate1 rate0 (setCause .restartRequest (cutProgramming cut s)))

/-! ### Rebuilding the tables (R199) -/

/-- The roster of the roster section is loaded. -/
def loadRoster (es : List (Nat × RosterEntry)) (s : State) : State :=
  forEach es (fun e t => t.setRosterEntry e.1 (some e.2)) s

/-- The settings of the settings section are loaded. -/
def loadSettings (v : StoredSettings) (s : State) : State :=
  let s1 := forEach (List.range Config.lines)
    (fun l t => t.setLine l { t.line l with settings := v.lines.getD l LineSettings.default }) s
  { s1 with
    monitor := { s1.monitor with tolerance := v.tolerance, limitCode := v.limitCode },
    flags := { s1.flags with mask := v.mask } }

/-- A stored plan as a POSTED slot, its check code computed (R39). -/
def loadedSlot (p : StoredPlan) : Slot :=
  { Slot.empty with header := some (storedHeader p.header), entries := putEntries 0 p.entries [] }.posted

/-- The slots of the plans section are loaded. -/
def loadPlans (ps : List StoredPlan) (s : State) : State :=
  forEach ps (fun p t => t.setSlot p.slot (loadedSlot p)) s

/-- The write sequence number that a stored calendar entry takes at restart: its place, from 1, in the order of the
stored numbers (R45). Of entries with equal stored numbers the one with the lower id comes first (DESIGN CHOICE,
assumption log 43). -/
def renumbered (es : List StoredEvent) (e : StoredEvent) : Nat :=
  1 + (es.filter (fun x => decide (x.sequence < e.sequence)
    || (decide (x.sequence = e.sequence) && decide (x.event.id < e.event.id)))).length

/-- The timetables of the timetables section are loaded, the calendar renumbered (R45). -/
def loadTimetables (v : StoredTimetables) (s : State) : State :=
  { s with resolver := { s.resolver with
      programs := (List.range Config.programs).foldl
        (fun t i => Table.set [] t (i + 1) ((v.programs.getD i []).map storedProgramEntry)) []
      weeks := (List.range Config.groups).foldl
        (fun t i => Table.set (List.replicate 7 0) t (i + 1) (v.weeks.getD i (List.replicate 7 0))) []
      events := v.events.foldl
        (fun t e => Table.set none t e.event.id (some (storedEvent e.event (renumbered v.events e)))) []
      sequence := v.events.length + 1 } }

/-- What a section holds takes effect where it is LOADED. -/
def loadWith {α : Type} (r : LoadResult × Option α) (load : α → State → State) (s : State) : State :=
  match r.2 with
  | some v => load v s
  | none => s

/-- The result and the number of items of a section at load. -/
def loadItems {α : Type} (r : LoadResult × Option α) (count : α → Nat) : LoadResult × Nat :=
  (r.1, (r.2.map count).getD 0)

/-- The number of items of the timetables section. -/
def timetableItems (v : StoredTimetables) : Nat :=
  sumOf (v.programs.map (·.length)) + Config.groups + v.events.length

/-- The re-check of one slot that was loaded as POSTED (R199 step 3). -/
def recheckSlot (n : Nat) (s : State) : State :=
  match planCheck s n false with
  | .passed _ => s
  | .failed check i => failCheck n check i s

/-- Line states as the settings and the roster give them, without notice (R166). -/
def settleLines (s : State) : State :=
  forEach (List.range Config.lines) (fun l t => t.setLine l { t.line l with state := derivedLineState t l }) s

/-- The sections are read and judged, the floors built, the plans re-checked (R199). -/
def rebuildTables (s : State) : State :=
  let roster := loadSection s.store.roster parseRoster
  let settings := loadSection s.store.settings parseSettings
  let plans := loadSection s.store.plans parsePlans
  let timetables := loadSection s.store.timetables parseTimetables
  let s1 := loadWith timetables loadTimetables (loadWith plans loadPlans
    (loadWith settings loadSettings (loadWith roster loadRoster s)))
  let s2 := buildEffective (settleLines s1)
  let loaded := slotsInState s2 .posted
  let s3 := forEach loaded recheckSlot s2
  let report : LoadReport :=
    { sections := [loadItems roster List.length, loadItems settings (fun v => v.lines.length),
        loadItems plans List.length, loadItems timetables timetableItems]
      passedOver := passedOverCount s3, posted := loaded.length
      returned := loaded.length - (slotsInState s3 .posted).length }
  { s3 with
    library := { s3.library with freeList := slotsInState s3 .free },
    startUp := { s3.startUp with rebuilt := some report } }

/-- Start-up rebuilds the tables, once after each reset (R199). -/
def rebuildIfDue (s : State) : State :=
  if s.startUp.phase = .loading ∧ s.startUp.rebuilt = none then rebuildTables s else s

/-! ### Groups and sites (R200) -/

/-- The POSTED slot that a resume record matches, by plan number and check code. -/
def resumeSlot (s : State) (r : ResumeRecord) : Option Nat :=
  if r.plan = 0 then none
  else (postedSlot s r.plan).filter (fun n => decide ((s.slot n).checkCode = r.checkCode))

/-- One group is rebuilt (R200 step 4). -/
def resumeGroup (g : Nat) (s : State) : State :=
  let members := (s.membersOf g).length
  let r := s.resumeOf g
  let fresh := { GroupRecord.empty with members := members }
  if members = 0 then (s.setGroup g GroupRecord.empty).setResume g ResumeRecord.free
  else match resumeSlot s r with
    | none => (s.setGroup g fresh).setResume g ResumeRecord.free
    | some n =>
      takeReference n (s.setGroup g { fresh with
        reference := some { slot := n, plan := r.plan, epoch := r.epoch, cycle := r.cycle },
        lastSwitch := some r.epoch })

/-- Retained hold marks of site numbers that the roster does not hold are cleared (R200 step 5). -/
def dropHolds (s : State) : State :=
  { s with retained := { s.retained with
      holds := s.retained.holds.filter (fun e => (s.rosterEntry e.1).isSome) } }

/-! ### The end of start-up (R201) -/

/-- The groups in a state. -/
def groupsIn (s : State) (st : GroupState) : List Nat :=
  (upTo Config.groups).filter (fun g => decide ((s.group g).state = st))

/-- A resumed group in STARTED: group, plan, slot. -/
def resumedFields (s : State) (g : Nat) : List Field :=
  let r := (s.group g).reference
  [.byte g, .byte ((r.map (·.plan)).getD 0), slotField (r.map (·.slot))]

/-- STARTED (R201). -/
def raiseStarted (r : LoadReport) (s : State) : State :=
  raise .started
    ([.code s.retained.cause.code]
      ++ r.sections.flatMap (fun v => [.code v.1.code, .total v.2])
      ++ entryCounts s ++ [.total r.passedOver, .mark s.floors.lockInEffect, .byte r.posted, .byte r.returned,
        .byte (groupsIn s .free).length, .byte (groupsIn s .empty).length,
        .total (rosterEntries s).length, .total (heldSites s).length, .mark s.time.valid,
        .code s.time.discipline.code]
      ++ counted (groupsIn s .running) (resumedFields s)) s

/-- What start-up found, or nothing where it has not rebuilt. -/
def LoadReport.none : LoadReport := { sections := [], passedOver := 0, posted := 0, returned := 0 }

/-- The end of start-up (R200, R201): the tables are rebuilt if they are not yet, then groups and sites, RUNNING, STARTED,
the first rounds, and the first pass asked for. -/
def endStartUp (s : State) : State :=
  if s.startUp.phase ≠ .loading then s
  else
    let s1 := rebuildIfDue s
    let s2 := dropHolds (forEach (upTo Config.groups) resumeGroup s1)
    let s3 := { s2 with startUp := { s2.startUp with phase := .running } }
    let s4 := raiseStarted (s3.startUp.rebuilt.getD LoadReport.none) s3
    askPass .asked (forEach (List.range Config.lines) startRound s4)

end Sys2Proof.Machine
end

