-- ==== Sys2Proof/Machine/Link.lean ====
section
/-! DEFINITION. The Link Controller (chapter 10): the receive framer, the request queue and refusal list, serving, the
arbiter, and the services of IDENTIFY, STATUS and RESTART. -/

namespace Sys2Proof.Machine

/-- The state with the Link Controller replaced. -/
def State.setLink (s : State) (v : LinkController) : State := { s with link := v }

/-! ### Rejections (R180) -/

/-- Frame rejection reason (R180). -/
inductive RejectReason where
  | gap
  | framing
  | length
  | crc
  | overrun
deriving DecidableEq, Repr

/-- Code of a rejection reason (Table 12-2). -/
def RejectReason.code : RejectReason → Nat
  | .gap => 0 | .framing => 1 | .length => 2 | .crc => 3 | .overrun => 4

/-- The bytes of a frame received so far, counting the sync byte (R180; assumption log 20). -/
def Framer.received : Framer → Nat
  | .hunt => 0
  | .length first => 1 + first.toList.length
  | .header _ kind => 3 + kind.toList.length
  | .body _ _ _ got => 5 + got.length
  | .check _ _ _ got first => 5 + got.length + first.toList.length

/-- The body length, where it was received. -/
def Framer.bodyLength : Framer → Option Nat
  | .hunt => none
  | .length _ => none
  | .header n _ => some n
  | .body n _ _ _ => some n
  | .check n _ _ _ _ => some n

/-- The kind, where it was received. -/
def Framer.kind : Framer → Option Byte
  | .hunt => none
  | .length _ => none
  | .header _ k => k
  | .body _ k _ _ => some k
  | .check _ k _ _ _ => some k

/-- The tag, where it was received. -/
def Framer.tag : Framer → Option Byte
  | .hunt => none
  | .length _ => none
  | .header _ _ => none
  | .body _ _ t _ => some t
  | .check _ _ t _ _ => some t

/-- A frame is rejected (R180): the total rises, FRAME-REJECTED is raised, and the framer returns to HUNT. -/
def rejectFrame (reason : RejectReason) (bytes : Nat) (length : Option Nat) (kind tag : Option Byte)
    (s : State) : State :=
  raise .frameRejected
    ([.code reason.code, .total bytes] ++ withPresence
      [opt (may length 0 (fun n => [.total n])), opt (may (kind.map BitVec.toNat) 0 (fun n => [.byte n])),
       opt (may (tag.map BitVec.toNat) 0 (fun n => [.byte n])), opt (always [.count s.now])])
    (s.setLink { s.link with framer := .hunt, rejectedTotal := countUp 65535 s.link.rejectedTotal })

/-- The frame in the framer is rejected, after some bytes beyond those it holds. -/
def rejectCurrent (reason : RejectReason) (more : Nat) (length : Option Nat) (s : State) : State :=
  let f := s.link.framer
  rejectFrame reason (f.received + more) length f.kind f.tag s

/-! ### Arrival (R181) -/

/-- A good frame arrives: queued, refused, or rejected with OVERRUN (R181). -/
def arrive (kind tag : Byte) (body : List Byte) (s : State) : State :=
  let l := s.link
  if l.queue.length < Config.requestQueue then
    let r : RequestRecord := { kind := kind, tag := tag, body := body, arrived := s.now }
    s.setLink { l with queue := l.queue ++ [r] }
  else if l.refusals.length < Config.refusalList then
    s.setLink { l with refusals := l.refusals ++ [(kind, tag)], refusalTotal := countUp 65535 l.refusalTotal }
  else rejectFrame .overrun (7 + body.length) (some body.length) (some kind) (some tag) s

/-! ### The framer (R179) -/

/-- The state with the framer replaced. -/
def State.setFramer (s : State) (f : Framer) : State := s.setLink { s.link with framer := f }

/-- The framer after the header: BODY, or CHECK when the length is 0 (R179). -/
def afterHeader (length : Nat) (kind tag : Byte) : Framer :=
  if length = 0 then .check 0 kind tag [] none else .body length kind tag []

/-- The framer after a body byte (R179). -/
def afterBody (length : Nat) (kind tag : Byte) (got : List Byte) : Framer :=
  if got.length < length then .body length kind tag got else .check length kind tag got none

/-- The check that a frame's bytes give (R178). -/
def frameCheck (length : Nat) (kind tag : Byte) (body : List Byte) : BitVec 16 :=
  crc16 (leBytes 2 length ++ [kind, tag] ++ body)

/-- A byte without a framing error at the framer (R179). -/
def frameByte (b : Byte) (s : State) : State :=
  match s.link.framer with
  | .hunt => if b = 0xA5 then s.setFramer (.length none) else s
  | .length none => s.setFramer (.length (some b))
  | .length (some a) =>
    if Config.frameBody < leNumber [a, b] then rejectCurrent .length 1 (some (leNumber [a, b])) s
    else s.setFramer (.header (leNumber [a, b]) none)
  | .header n none => s.setFramer (.header n (some b))
  | .header n (some k) => s.setFramer (afterHeader n k b)
  | .body n k t got => s.setFramer (afterBody n k t (got ++ [b]))
  | .check n k t got none => s.setFramer (.check n k t got (some b))
  | .check n k t got (some a) =>
    if leNumber [a, b] = (frameCheck n k t got).toNat then arrive k t got (s.setFramer .hunt)
    else rejectCurrent .crc 1 (some n) s

/-- One character of the planning link (R179): none is received while RESET is held, a framing error is discarded in HUNT
and ends the frame in any other state. -/
def receiveByte (b : Byte) (framingError : Bool) (s : State) : State :=
  if s.startUp.phase = .held then s
  else if framingError = false then frameByte b s
  else if s.link.framer = .hunt then s
  else rejectCurrent .framing 1 s.link.framer.bodyLength s

/-- The line has been quiet for more than 50 ms inside a frame (R180). -/
def frameGap (s : State) : State :=
  if s.link.framer = .hunt then s else rejectCurrent .gap 0 s.link.framer.bodyLength s

/-! ### The general requests (R189 to R191) -/

/-- IDENTIFY (R189); the widths of its numbers are a DESIGN CHOICE (assumption log 17). -/
def serveIdentify (tag : Byte) (s : State) : State :=
  answer Kind.identify tag .ok
    [.total 0x4254, .total 0x7320, .byte 1, .total Config.sites, .byte Config.groups, .byte Config.slots,
     .byte Config.plans, .byte Config.entriesPerPlan, .byte Config.programs, .byte Config.entriesPerProgram,
     .byte Config.events, .byte Config.lines, .byte Config.sitesPerLine, .byte Config.membersPerGroup,
     .byte Config.requestQueue, .byte Config.refusalList, .byte Config.noticeQueue, .total Config.frameBody,
     .code s.link.rate] s

/-- The number of groups in a state. -/
def groupCount (s : State) (st : GroupState) : Nat := (groupsIn s st).length

/-- The number of site tracker records in a state (DEDUCED, assumption log 18). -/
def trackerCount (s : State) (st : TrackerState) : Nat :=
  countWhere (upTo Config.sites) (fun n => decide ((s.tracker n).state = st))

/-- The number of lines in a state. -/
def lineCount (s : State) (st : LineState) : Nat :=
  countWhere (List.range Config.lines) (fun l => decide ((s.line l).state = st))

/-- The number of forces held. -/
def forcesHeld (s : State) : Nat := (s.resolver.forces.filter (fun e => e.2.isSome)).length

/-- The items of STATUS from the store mark onward, absent while LOADING (R190). -/
def statusTables (s : State) : List Field :=
  let item (f : Field) : Option Bool × List Field := (some s.isRunning, [f])
  let bytes (l : List Nat) : List (Option Bool × List Field) :=
    l.map (fun n => item (.byte (if s.isRunning then n else 0)))
  let totals (l : List Nat) : List (Option Bool × List Field) :=
    l.map (fun n => item (.total (if s.isRunning then n else 0)))
  let mark (b : Bool) : Option Bool × List Field := item (.mark (s.isRunning && b))
  withPresence
    ([mark s.storing, mark s.floors.windowOpen, mark s.floors.lockInEffect]
    ++ bytes ([SlotState.free, .filling, .checking, .posted, .retiring].map
        (fun st => (slotsInState s st).length))
    ++ bytes [s.library.checkQueue.length, forcesHeld s, eventsHeld s]
    ++ bytes ([GroupState.empty, .free, .running, .pending].map (groupCount s))
    ++ totals ([TrackerState.offline, .free, .acquiring, .seeking, .inStep].map (trackerCount s))
    ++ totals [(heldSites s).length]
    ++ bytes ([LineState.disabled, .idle, .active, .degraded, .down].map (lineCount s)))

/-- STATUS (R190). -/
def serveStatus (tag : Byte) (s : State) : State :=
  let l := s.link
  let v := s.time
  answer Kind.status tag .ok
    ([.code (markCode s.isRunning), .code s.retained.cause.code, .count s.now, .mark v.valid, .day v.day,
      .minute (minuteOf v.timeOfDay), .code v.discipline.code, .byte l.queue.length, .byte l.refusals.length,
      .byte l.notices.length, .mark l.lostMark, .total l.lostCount, .total l.rejectedTotal,
      .total l.refusalTotal, .mark (attnPin s)] ++ statusTables s) s

/-- RESTART (R191): no further request is served. -/
def serveRestart (tag : Byte) (s : State) : State :=
  let t := refuse Kind.restart tag .ok s
  t.setLink { t.link with stopped := true }

/-! ### Serving (R182) -/

/-- A request is served by its owner (Table 10-4). A command that is no request has no service. -/
def serveRequest : Instr → State → State
  | .identify tag => serveIdentify tag
  | .status tag => serveStatus tag
  | .restart tag => serveRestart tag
  | .setTime tag d t => serveSetTime tag d t
  | .getTime tag => serveGetTime tag
  | .writeSite tag n l a g => serveWriteSite tag n l a g
  | .readSite tag n => serveReadSite tag n
  | .removeSite tag n => serveRemoveSite tag n
  | .takeSlot tag => serveTakeSlot tag
  | .writePlanHeader tag n h => serveWritePlanHeader tag n h
  | .writePlanSites tag n f es => serveWritePlanSites tag n f es
  | .postPlan tag n m => servePostPlan tag n m
  | .withdrawPlan tag n => serveWithdrawPlan tag n
  | .readPlan tag n f k => serveReadPlan tag n f k
  | .listPlans tag sel f k => serveListPlans tag sel f k
  | .writeDayProgram tag p es => serveWriteDayProgram tag p es
  | .readDayProgram tag p => serveReadDayProgram tag p
  | .writeWeek tag g ps => serveWriteWeek tag g ps
  | .readWeek tag g => serveReadWeek tag g
  | .writeEvent tag e => serveWriteEvent tag e
  | .readEvent tag id m => serveReadEvent tag id m
  | .deleteEvent tag id => serveDeleteEvent tag id
  | .forcePlan tag p d gs => serveForcePlan tag p d gs
  | .releaseForce tag gs => serveReleaseForce tag gs
  | .storeTables tag => serveStoreTables tag
  | .groupStatus tag g => serveGroupStatus tag g
  | .siteStatus tag n => serveSiteStatus tag n
  | .releaseHold tag n => serveReleaseHold tag n
  | .setMonitor tag r t c => serveSetMonitor tag r t c
  | .watch tag n => serveWatch tag n
  | .lineControl tag l r v => serveLineControl tag l r v
  | .lineStatus tag l c => serveLineStatus tag l c
  | .clearFlags tag n f => serveClearFlags tag n f
  | .setFlagMask tag r m => serveSetFlagMask tag r m
  | .signalSite tag n f => serveSignalSite tag n f
  | .openCommissioning tag _ => serveOpenCommissioning tag
  | .commissionFloor tag n k a b fs => serveCommissionFloor tag n k a b fs
  | .lockFloors tag => serveLockFloors tag
  | .readFloor tag r => serveReadFloor tag r.site
  | .powerOn _ _ => id
  | .resetPinAssert _ => id
  | .resetRelease _ _ => id
  | .startupEnd => id
  | .ppsEdge _ => id
  | .ppsAbsence => id
  | .tick => id
  | .slewStep => id
  | .epochRenewal _ => id
  | .windowExpiry => id
  | .switchTaken _ => id
  | .resolverPass => id
  | .planCheckStart => id
  | .planCheckEnd => id
  | .floorProgrammingEnd _ _ _ => id
  | .lockProgrammingEnd _ => id
  | .commissionEnDeassert => id
  | .storeSectionWritten _ => id
  | .storeEnd => id
  | .emptyRoundEnd _ => id
  | .pollSend _ => id
  | .pollSent _ => id
  | .reportStartBit _ => id
  | .replyTimeout _ => id
  | .reportGapTimeout _ _ => id
  | .reportReceived _ _ => id
  | .stuReport _ _ => id
  | .cmReport _ => id
  | .zeroJudgement _ => id
  | .fuReport _ => id
  | .planningLinkByte _ _ => id
  | .frameGapTimeout => id
  | .frameTransmitEnd _ => id
  | .unknownKind _ _ _ => id
  | .startUpTablesRebuilt => id

/-- A kind that is served while LOADING (R182 case 3). -/
def servedLoading (kind : Byte) : Bool := decide (kind = Kind.identify) || decide (kind = Kind.status)

/-- A request of a known kind and an allowed length is served, or answered BUSY while LOADING (R182 cases 3 and 4). That
BUSY carries no field, for READ-EVENT too (DESIGN CHOICE, assumption log 44). -/
def serveGated (kind tag : Byte) (service : State → State) (s : State) : State :=
  if s.isRunning || servedLoading kind then service s else refuse kind tag .busy s

/-- A request record is judged and served (R182), with the level of COMMISSION_EN and the stored images as they stand
then. -/
def serveRecord (kind tag : Byte) (body : List Byte) (s : State) : State :=
  match decodeRequest { key := s.pins.commissionEn, programmed := 0 } kind tag body with
  | .unknownKind => refuse kind tag .unknownKind s
  | .badLength => refuse kind tag .badLength s
  | .request i => serveGated kind tag (serveRequest i) s

/-- The record at the head of the request queue is served whenever the reply slot is empty (R182), until RESTART has been
served (R191). -/
def serveIfDue (s : State) : State :=
  match s.link.replySlot, s.link.stopped, s.link.queue with
  | none, false, r :: rest => serveRecord r.kind r.tag r.body (s.setLink { s.link with queue := rest })
  | _, _, _ => s

/-! ### Transmitting (R186, R188) -/

/-- NOTICES-LOST (R188). -/
def noticesLost (l : LinkController) : Notice :=
  let first := l.firstLost.getD (.started, 0)
  { kind := .noticesLost, fields := [.total l.lostCount, .code first.1.code.toNat, .count first.2] }

/-- A notice leaves the queue; while the notices-lost mark is set, NOTICES-LOST takes the place freed (R188). -/
def noticeLeaves (n : Notice) (rest : List Notice) (l : LinkController) : LinkController :=
  if l.lostMark then
    { l with
      notices := rest ++ [noticesLost l], lostMark := false, lostCount := 0, firstLost := none,
      inFlight := some (.notice n) }
  else { l with notices := rest, inFlight := some (.notice n) }

/-- The frame that the arbiter takes next, where one waits (R186). -/
def nextFrame (l : LinkController) : LinkController :=
  match l.refusals, l.replySlot, l.notices with
  | r :: rest, _, _ => { l with refusals := rest, inFlight := some (.queueFull r.1 r.2) }
  | [], some r, _ => { l with replySlot := none, inFlight := some (.reply r) }
  | [], none, n :: rest => noticeLeaves n rest l
  | [], none, [] => l

/-- The arbiter chooses the next frame whenever the transmitter is free (R186). -/
def arbitrate (s : State) : State :=
  if s.link.inFlight.isSome then s else s.setLink (nextFrame s.link)

/-- The Link Controller at the end of an event (R182, R186): what waits and can be served is served, the transmitter
takes the next frame, and a reply slot that it empties is filled again (assumption log 6). -/
def pump (s : State) : State :=
  if s.startUp.phase = .held then s else serveIfDue (arbitrate (serveIfDue s))

/-- The frame in flight is the OK reply to RESTART (R191). -/
def isRestartReply : TxFrame → Bool
  | .reply r => decide (r.kind = Kind.restart) && decide (r.status = .ok)
  | .queueFull _ _ => false
  | .notice _ => false

/-- The last stop bit of a frame ends (R186); that of the RESTART reply begins the reset (R191, R193). -/
def transmitEnds (ending : FrameEnd) (s : State) : State :=
  match s.link.inFlight with
  | none => s
  | some f =>
    if isRestartReply f then restartReset ending.rate1 ending.rate0 ending.cut s
    else s.setLink { s.link with inFlight := none }

/-! ### Requests as commands -/

/-- A request can be served as it arrives: the reply slot and the request queue are empty, and RESTART has not been
served (R182, R191). -/
def canServe (l : LinkController) : Bool := l.replySlot.isNone && l.queue.isEmpty && !l.stopped

/-- A request arrives as a good frame of its kind (R181, R182): served at once where the LC is free, kept as a request
record otherwise; while RESET is held nothing is received. -/
def offer (i : Instr) (service : State → State) (s : State) : State :=
  match encodeRequest i with
  | none => s
  | some (kind, tag, body) =>
    if s.startUp.phase = .held then s
    else if canServe s.link then serveGated kind tag service s
    else arrive kind tag body s

/-- A good frame of any kind arrives (R181, R182). -/
def offerFrame (kind tag : Byte) (body : List Byte) (s : State) : State :=
  if s.startUp.phase = .held then s
  else if canServe s.link then serveRecord kind tag body s
  else arrive kind tag body s

end Sys2Proof.Machine
end

