-- ==== Sys2Proof/Machine/Events.lean ====
section
/-! DEFINITION. The meanings of the events: what happens inside the part and at its pins. An event whose condition does not
hold leaves the part as it is (DESIGN CHOICE, assumption log 4), and a duration ends when its command comes (DESIGN CHOICE,
assumption log 27); each ends with the Link Controller's own steps (DESIGN CHOICE, assumption log 6).
-/

namespace Sys2Proof.Machine

/-- The outcome of a command that leaves the part in a state: the next state, once the Link Controller has acted. -/
def finish (s : State) : Host.Outcome State Fault Refusal := .next (pump s)

/-- POWER_ON (R193, R194). -/
def execPowerOn (pins : PinLevels) (cut : ProgramCut) (s : State) : Host.Outcome State Fault Refusal :=
  finish (powerOnReset pins cut s)

/-- RESET_PIN_ASSERT (R193). -/
def execResetPinAssert (cut : ProgramCut) (s : State) : Host.Outcome State Fault Refusal :=
  finish (resetPinReset cut s)

/-- RESET_RELEASE (R176, R198). -/
def execResetRelease (rate1 : Bool) (rate0 : Bool) (s : State) : Host.Outcome State Fault Refusal :=
  finish (releaseReset rate1 rate0 s)

/-- STARTUP_END (R200, R201). -/
def execStartupEnd (s : State) : Host.Outcome State Fault Refusal :=
  finish (endStartUp s)

/-- PPS_EDGE (R2, R3). -/
def execPpsEdge (counts : Nat) (s : State) : Host.Outcome State Fault Refusal :=
  finish (ppsEdgeAt counts s)

/-- PPS_ABSENCE (R4). -/
def execPpsAbsence (s : State) : Host.Outcome State Fault Refusal :=
  finish (reachAbsence s)

/-- TICK (R5). -/
def execTick (s : State) : Host.Outcome State Fault Refusal :=
  finish (takeTick s)

/-- SLEW_STEP (R12). -/
def execSlewStep (s : State) : Host.Outcome State Fault Refusal :=
  finish (takeSlewStep s)

/-- EPOCH_RENEWAL (R66). -/
def execEpochRenewal (group : Nat) (s : State) : Host.Outcome State Fault Refusal :=
  finish (renewEpoch group s)

/-- WINDOW_EXPIRY (R140). -/
def execWindowExpiry (s : State) : Host.Outcome State Fault Refusal :=
  finish (expireWindow s)

/-- SWITCH_TAKEN (R70). -/
def execSwitchTaken (group : Nat) (s : State) : Host.Outcome State Fault Refusal :=
  finish (takeIfDue group s)

/-- RESOLVER_PASS (R58). -/
def execResolverPass (s : State) : Host.Outcome State Fault Refusal :=
  finish (runOwedPass s)

/-- PLAN_CHECK_START (R24). -/
def execPlanCheckStart (s : State) : Host.Outcome State Fault Refusal :=
  finish (Sys2Proof.Machine.planCheckStart s)

/-- PLAN_CHECK_END (R26). -/
def execPlanCheckEnd (s : State) : Host.Outcome State Fault Refusal :=
  finish (Sys2Proof.Machine.planCheckEnd s)

/-- FLOOR_PROGRAMMING_END (R133, R134). -/
def execFloorProgrammingEnd (deaf : Image) (commit : CommitReading) (failureTakes : Bool) (s : State) : Host.Outcome State Fault Refusal :=
  finish (endFloorProgramming deaf commit failureTakes s)

/-- LOCK_PROGRAMMING_END (R138). -/
def execLockProgrammingEnd (takes : Bool) (s : State) : Host.Outcome State Fault Refusal :=
  finish (endLockProgramming takes s)

/-- COMMISSION_EN_DEASSERT (R141). -/
def execCommissionEnDeassert (s : State) : Host.Outcome State Fault Refusal :=
  finish (deassertKey s)

/-- STORE_SECTION_WRITTEN (R197). -/
def execStoreSectionWritten (readsBack : Bool) (s : State) : Host.Outcome State Fault Refusal :=
  finish (writeSection readsBack s)

/-- STORE_END (R197). -/
def execStoreEnd (s : State) : Host.Outcome State Fault Refusal :=
  finish (endStore s)

/-- EMPTY_ROUND_END (R153). -/
def execEmptyRoundEnd (line : Nat) (s : State) : Host.Outcome State Fault Refusal :=
  finish (endEmptyRound line s)

/-- POLL_SEND (R155). -/
def execPollSend (line : Nat) (s : State) : Host.Outcome State Fault Refusal :=
  finish (sendPoll line s)

/-- POLL_SENT (R155). -/
def execPollSent (line : Nat) (s : State) : Host.Outcome State Fault Refusal :=
  finish (pollEnds line s)

/-- REPORT_START_BIT (R156). -/
def execReportStartBit (line : Nat) (s : State) : Host.Outcome State Fault Refusal :=
  finish (reportStarts line s)

/-- REPLY_TIMEOUT (R156, R159). -/
def execReplyTimeout (line : Nat) (s : State) : Host.Outcome State Fault Refusal :=
  finish (replyTimesOut line s)

/-- REPORT_GAP_TIMEOUT (R156, R157). -/
def execReportGapTimeout (line : Nat) (bytes : List Byte) (s : State) : Host.Outcome State Fault Refusal :=
  finish (receptionEnds line bytes s)

/-- REPORT_RECEIVED (R157 to R159). -/
def execReportReceived (line : Nat) (bytes : List Byte) (s : State) : Host.Outcome State Fault Refusal :=
  finish (receptionEnds line bytes s)

/-- STU_REPORT (R89 to R93). -/
def execStuReport (site : Nat) (judgeFirst : Bool) (s : State) : Host.Outcome State Fault Refusal :=
  finish (takeStuReport site judgeFirst s)

/-- CM_REPORT (R114). -/
def execCmReport (site : Nat) (s : State) : Host.Outcome State Fault Refusal :=
  finish (takeCmReport site s)

/-- ZERO_JUDGEMENT (R115 to R119). -/
def execZeroJudgement (site : Nat) (s : State) : Host.Outcome State Fault Refusal :=
  finish (judgeNext site s)

/-- FU_REPORT (R168). -/
def execFuReport (site : Nat) (s : State) : Host.Outcome State Fault Refusal :=
  finish (takeFuReport site s)

/-- PLANNING_LINK_BYTE (R179), which may complete the frame of a request that is served at once. -/
def execPlanningLinkByte (character : LinkCharacter) (seen : Seen) (s : State) : Host.Outcome State Fault Refusal :=
  finish (receiveByte character.value character.framingError (look seen s))

/-- FRAME_GAP_TIMEOUT (R180). -/
def execFrameGapTimeout (s : State) : Host.Outcome State Fault Refusal :=
  finish (frameGap s)

/-- FRAME_TRANSMIT_END (R186, R191), which may free the reply slot for a queued request. -/
def execFrameTransmitEnd (ending : FrameEnd) (s : State) : Host.Outcome State Fault Refusal :=
  finish (transmitEnds ending (look ending.seen s))

/-- UNKNOWN_KIND (R182). -/
def execUnknownKind (tag : Byte) (kind : Byte) (body : List Byte) (s : State) : Host.Outcome State Fault Refusal :=
  finish (offerFrame kind tag body s)

/-- START_UP_TABLES_REBUILT (R199). -/
def execStartUpTablesRebuilt (s : State) : Host.Outcome State Fault Refusal :=
  finish (rebuildIfDue s)

end Sys2Proof.Machine
end

