-- ==== Sys2Proof/Machine/Requests.lean ====
section
/-! DEFINITION. The meanings of the requests: each is offered to the Link Controller as a good frame (R181) with the service
of its owner (Table 10-4), and ends with the Link Controller's own steps (assumption log 6). -/

namespace Sys2Proof.Machine

/-- IDENTIFY (R189). -/
def execIdentify (tag : Byte) (s : State) :
    Host.Outcome State Fault Refusal :=
  finish (offer (.identify tag) (serveIdentify tag) s)

/-- STATUS (R190). -/
def execStatus (tag : Byte) (s : State) :
    Host.Outcome State Fault Refusal :=
  finish (offer (.status tag) (serveStatus tag) s)

/-- RESTART (R191). -/
def execRestart (tag : Byte) (s : State) :
    Host.Outcome State Fault Refusal :=
  finish (offer (.restart tag) (serveRestart tag) s)

/-- SET-TIME (R11). -/
def execSetTime (tag : Byte) (day : Nat) (timeOfDay : Nat) (s : State) :
    Host.Outcome State Fault Refusal :=
  finish (offer (.setTime tag day timeOfDay) (serveSetTime tag day timeOfDay) s)

/-- GET-TIME (R14). -/
def execGetTime (tag : Byte) (s : State) :
    Host.Outcome State Fault Refusal :=
  finish (offer (.getTime tag) (serveGetTime tag) s)

/-- WRITE-SITE (R145). -/
def execWriteSite (tag : Byte) (site : Nat) (line : Nat) (address : Nat) (group : Nat) (s : State) :
    Host.Outcome State Fault Refusal :=
  finish (offer (.writeSite tag site line address group) (serveWriteSite tag site line address group) s)

/-- READ-SITE (R148). -/
def execReadSite (tag : Byte) (site : Nat) (s : State) :
    Host.Outcome State Fault Refusal :=
  finish (offer (.readSite tag site) (serveReadSite tag site) s)

/-- REMOVE-SITE (R147). -/
def execRemoveSite (tag : Byte) (site : Nat) (s : State) :
    Host.Outcome State Fault Refusal :=
  finish (offer (.removeSite tag site) (serveRemoveSite tag site) s)

/-- TAKE-SLOT (R20). -/
def execTakeSlot (tag : Byte) (s : State) :
    Host.Outcome State Fault Refusal :=
  finish (offer (.takeSlot tag) (serveTakeSlot tag) s)

/-- WRITE-PLAN-HEADER (R22). -/
def execWritePlanHeader (tag : Byte) (slot : Nat) (header : RawHeader) (s : State) :
    Host.Outcome State Fault Refusal :=
  finish (offer (.writePlanHeader tag slot header) (serveWritePlanHeader tag slot header) s)

/-- WRITE-PLAN-SITES (R23). -/
def execWritePlanSites (tag : Byte) (slot : Nat) (first : Nat) (entries : List RawEntry) (s : State) :
    Host.Outcome State Fault Refusal :=
  finish (offer (.writePlanSites tag slot first entries) (serveWritePlanSites tag slot first entries) s)

/-- POST-PLAN (R25). -/
def execPostPlan (tag : Byte) (slot : Nat) (supersede : Nat) (s : State) :
    Host.Outcome State Fault Refusal :=
  finish (offer (.postPlan tag slot supersede) (servePostPlan tag slot supersede) s)

/-- WITHDRAW-PLAN (R33). -/
def execWithdrawPlan (tag : Byte) (slot : Nat) (s : State) :
    Host.Outcome State Fault Refusal :=
  finish (offer (.withdrawPlan tag slot) (serveWithdrawPlan tag slot) s)

/-- READ-PLAN (R37). -/
def execReadPlan (tag : Byte) (slot : Nat) (first : Nat) (number : Nat) (s : State) :
    Host.Outcome State Fault Refusal :=
  finish (offer (.readPlan tag slot first number) (serveReadPlan tag slot first number) s)

/-- LIST-PLANS (R38). -/
def execListPlans (tag : Byte) (selection : Byte) (first : Nat) (number : Nat) (s : State) :
    Host.Outcome State Fault Refusal :=
  finish (offer (.listPlans tag selection first number) (serveListPlans tag selection first number) s)

/-- WRITE-DAY-PROGRAM (R41). -/
def execWriteDayProgram (tag : Byte) (program : Nat) (entries : List RawProgramEntry) (s : State) :
    Host.Outcome State Fault Refusal :=
  finish (offer (.writeDayProgram tag program entries) (serveWriteDayProgram tag program entries) s)

/-- READ-DAY-PROGRAM (R42). -/
def execReadDayProgram (tag : Byte) (program : Nat) (s : State) :
    Host.Outcome State Fault Refusal :=
  finish (offer (.readDayProgram tag program) (serveReadDayProgram tag program) s)

/-- WRITE-WEEK (R43). -/
def execWriteWeek (tag : Byte) (group : Nat) (programs : List Nat) (s : State) :
    Host.Outcome State Fault Refusal :=
  finish (offer (.writeWeek tag group programs) (serveWriteWeek tag group programs) s)

/-- READ-WEEK (R43). -/
def execReadWeek (tag : Byte) (group : Nat) (s : State) :
    Host.Outcome State Fault Refusal :=
  finish (offer (.readWeek tag group) (serveReadWeek tag group) s)

/-- WRITE-EVENT (R46). -/
def execWriteEvent (tag : Byte) (event : RawEvent) (s : State) :
    Host.Outcome State Fault Refusal :=
  finish (offer (.writeEvent tag event) (serveWriteEvent tag event) s)

/-- READ-EVENT (R48). -/
def execReadEvent (tag : Byte) (id : Nat) (next : Nat) (s : State) :
    Host.Outcome State Fault Refusal :=
  finish (offer (.readEvent tag id next) (serveReadEvent tag id next) s)

/-- DELETE-EVENT (R47). -/
def execDeleteEvent (tag : Byte) (id : Nat) (s : State) :
    Host.Outcome State Fault Refusal :=
  finish (offer (.deleteEvent tag id) (serveDeleteEvent tag id) s)

/-- FORCE-PLAN (R49). -/
def execForcePlan (tag : Byte) (plan : Nat) (duration : Nat) (groups : List Nat) (s : State) :
    Host.Outcome State Fault Refusal :=
  finish (offer (.forcePlan tag plan duration groups) (serveForcePlan tag plan duration groups) s)

/-- RELEASE-FORCE (R51). -/
def execReleaseForce (tag : Byte) (groups : List Nat) (s : State) :
    Host.Outcome State Fault Refusal :=
  finish (offer (.releaseForce tag groups) (serveReleaseForce tag groups) s)

/-- STORE-TABLES (R196). -/
def execStoreTables (tag : Byte) (s : State) :
    Host.Outcome State Fault Refusal :=
  finish (offer (.storeTables tag) (serveStoreTables tag) s)

/-- GROUP-STATUS (R81). -/
def execGroupStatus (tag : Byte) (group : Nat) (s : State) :
    Host.Outcome State Fault Refusal :=
  finish (offer (.groupStatus tag group) (serveGroupStatus tag group) s)

/-- SITE-STATUS (R111). -/
def execSiteStatus (tag : Byte) (site : Nat) (s : State) :
    Host.Outcome State Fault Refusal :=
  finish (offer (.siteStatus tag site) (serveSiteStatus tag site) s)

/-- RELEASE-HOLD (R121). -/
def execReleaseHold (tag : Byte) (site : Nat) (s : State) :
    Host.Outcome State Fault Refusal :=
  finish (offer (.releaseHold tag site) (serveReleaseHold tag site) s)

/-- SET-MONITOR (R123). -/
def execSetMonitor (tag : Byte) (read : Nat) (tolerance : Nat) (limitCode : Nat) (s : State) :
    Host.Outcome State Fault Refusal :=
  finish (offer (.setMonitor tag read tolerance limitCode) (serveSetMonitor tag read tolerance limitCode) s)

/-- WATCH (R125). -/
def execWatch (tag : Byte) (site : Nat) (s : State) :
    Host.Outcome State Fault Refusal :=
  finish (offer (.watch tag site) (serveWatch tag site) s)

/-- LINE-CONTROL (R150). -/
def execLineControl (tag : Byte) (line : Nat) (read : Nat) (settings : RawSettings) (s : State) :
    Host.Outcome State Fault Refusal :=
  finish (offer (.lineControl tag line read settings) (serveLineControl tag line read settings) s)

/-- LINE-STATUS (R165). -/
def execLineStatus (tag : Byte) (line : Nat) (clear : Nat) (s : State) :
    Host.Outcome State Fault Refusal :=
  finish (offer (.lineStatus tag line clear) (serveLineStatus tag line clear) s)

/-- CLEAR-FLAGS (R170). -/
def execClearFlags (tag : Byte) (site : Nat) (flags : Byte) (s : State) :
    Host.Outcome State Fault Refusal :=
  finish (offer (.clearFlags tag site flags) (serveClearFlags tag site flags) s)

/-- SET-FLAG-MASK (R172). -/
def execSetFlagMask (tag : Byte) (read : Nat) (mask : Byte) (s : State) :
    Host.Outcome State Fault Refusal :=
  finish (offer (.setFlagMask tag read mask) (serveSetFlagMask tag read mask) s)

/-- SIGNAL-SITE (R174). -/
def execSignalSite (tag : Byte) (site : Nat) (flags : Byte) (s : State) :
    Host.Outcome State Fault Refusal :=
  finish (offer (.signalSite tag site flags) (serveSignalSite tag site flags) s)

/-- OPEN-COMMISSIONING (R139): the level of COMMISSION_EN is taken as the command comes (R141). -/
def execOpenCommissioning (tag : Byte) (keyAsserted : Bool) (s : State) :
    Host.Outcome State Fault Refusal :=
  finish (offer (.openCommissioning tag keyAsserted) (serveOpenCommissioning tag) (readKey keyAsserted s))

/-- COMMISSION-FLOOR (R132). -/
def execCommissionFloor (tag : Byte) (site : Nat) (intervals : Nat) (minCycle : Nat) (maxCycle : Nat) (minimums : List Nat) (s : State) :
    Host.Outcome State Fault Refusal :=
  finish (offer (.commissionFloor tag site intervals minCycle maxCycle minimums) (serveCommissionFloor tag site intervals minCycle maxCycle minimums) s)

/-- LOCK-FLOORS (R137). -/
def execLockFloors (tag : Byte) (s : State) :
    Host.Outcome State Fault Refusal :=
  finish (offer (.lockFloors tag) (serveLockFloors tag) s)

/-- READ-FLOOR (R142). -/
def execReadFloor (tag : Byte) (read : FloorRead) (s : State) :
    Host.Outcome State Fault Refusal :=
  finish (offer (.readFloor tag read) (serveReadFloor tag read.site) (look read.seen s))

end Sys2Proof.Machine
end

