-- ==== Sys2Proof/Machine/Dispatch.lean ====
section
/-! DEFINITION. The dispatch of a command to its meaning, one arm for each row of the table. -/

namespace Sys2Proof.Machine

def exec (i : Instr) (s : State) : Host.Outcome State Fault Refusal :=
  match i with
  | .powerOn pins cut => Sys2Proof.Machine.execPowerOn pins cut s
  | .resetPinAssert cut => Sys2Proof.Machine.execResetPinAssert cut s
  | .resetRelease rate1 rate0 => Sys2Proof.Machine.execResetRelease rate1 rate0 s
  | .startupEnd => Sys2Proof.Machine.execStartupEnd s
  | .ppsEdge counts => Sys2Proof.Machine.execPpsEdge counts s
  | .ppsAbsence => Sys2Proof.Machine.execPpsAbsence s
  | .tick => Sys2Proof.Machine.execTick s
  | .slewStep => Sys2Proof.Machine.execSlewStep s
  | .epochRenewal group => Sys2Proof.Machine.execEpochRenewal group s
  | .windowExpiry => Sys2Proof.Machine.execWindowExpiry s
  | .switchTaken group => Sys2Proof.Machine.execSwitchTaken group s
  | .resolverPass => Sys2Proof.Machine.execResolverPass s
  | .planCheckStart => Sys2Proof.Machine.execPlanCheckStart s
  | .planCheckEnd => Sys2Proof.Machine.execPlanCheckEnd s
  | .floorProgrammingEnd deaf commit failureTakes => Sys2Proof.Machine.execFloorProgrammingEnd deaf commit failureTakes s
  | .lockProgrammingEnd takes => Sys2Proof.Machine.execLockProgrammingEnd takes s
  | .commissionEnDeassert => Sys2Proof.Machine.execCommissionEnDeassert s
  | .storeSectionWritten readsBack => Sys2Proof.Machine.execStoreSectionWritten readsBack s
  | .storeEnd => Sys2Proof.Machine.execStoreEnd s
  | .emptyRoundEnd line => Sys2Proof.Machine.execEmptyRoundEnd line s
  | .pollSend line => Sys2Proof.Machine.execPollSend line s
  | .pollSent line => Sys2Proof.Machine.execPollSent line s
  | .reportStartBit line => Sys2Proof.Machine.execReportStartBit line s
  | .replyTimeout line => Sys2Proof.Machine.execReplyTimeout line s
  | .reportGapTimeout line bytes => Sys2Proof.Machine.execReportGapTimeout line bytes s
  | .reportReceived line bytes => Sys2Proof.Machine.execReportReceived line bytes s
  | .stuReport site judgeFirst => Sys2Proof.Machine.execStuReport site judgeFirst s
  | .cmReport site => Sys2Proof.Machine.execCmReport site s
  | .zeroJudgement site => Sys2Proof.Machine.execZeroJudgement site s
  | .fuReport site => Sys2Proof.Machine.execFuReport site s
  | .planningLinkByte character seen => Sys2Proof.Machine.execPlanningLinkByte character seen s
  | .frameGapTimeout => Sys2Proof.Machine.execFrameGapTimeout s
  | .frameTransmitEnd ending => Sys2Proof.Machine.execFrameTransmitEnd ending s
  | .unknownKind tag kind body => Sys2Proof.Machine.execUnknownKind tag kind body s
  | .identify tag => Sys2Proof.Machine.execIdentify tag s
  | .status tag => Sys2Proof.Machine.execStatus tag s
  | .restart tag => Sys2Proof.Machine.execRestart tag s
  | .setTime tag day timeOfDay => Sys2Proof.Machine.execSetTime tag day timeOfDay s
  | .getTime tag => Sys2Proof.Machine.execGetTime tag s
  | .writeSite tag site line address group => Sys2Proof.Machine.execWriteSite tag site line address group s
  | .readSite tag site => Sys2Proof.Machine.execReadSite tag site s
  | .removeSite tag site => Sys2Proof.Machine.execRemoveSite tag site s
  | .takeSlot tag => Sys2Proof.Machine.execTakeSlot tag s
  | .writePlanHeader tag slot header => Sys2Proof.Machine.execWritePlanHeader tag slot header s
  | .writePlanSites tag slot first entries => Sys2Proof.Machine.execWritePlanSites tag slot first entries s
  | .postPlan tag slot supersede => Sys2Proof.Machine.execPostPlan tag slot supersede s
  | .withdrawPlan tag slot => Sys2Proof.Machine.execWithdrawPlan tag slot s
  | .readPlan tag slot first number => Sys2Proof.Machine.execReadPlan tag slot first number s
  | .listPlans tag selection first number => Sys2Proof.Machine.execListPlans tag selection first number s
  | .writeDayProgram tag program entries => Sys2Proof.Machine.execWriteDayProgram tag program entries s
  | .readDayProgram tag program => Sys2Proof.Machine.execReadDayProgram tag program s
  | .writeWeek tag group programs => Sys2Proof.Machine.execWriteWeek tag group programs s
  | .readWeek tag group => Sys2Proof.Machine.execReadWeek tag group s
  | .writeEvent tag event => Sys2Proof.Machine.execWriteEvent tag event s
  | .readEvent tag id next => Sys2Proof.Machine.execReadEvent tag id next s
  | .deleteEvent tag id => Sys2Proof.Machine.execDeleteEvent tag id s
  | .forcePlan tag plan duration groups => Sys2Proof.Machine.execForcePlan tag plan duration groups s
  | .releaseForce tag groups => Sys2Proof.Machine.execReleaseForce tag groups s
  | .storeTables tag => Sys2Proof.Machine.execStoreTables tag s
  | .groupStatus tag group => Sys2Proof.Machine.execGroupStatus tag group s
  | .siteStatus tag site => Sys2Proof.Machine.execSiteStatus tag site s
  | .releaseHold tag site => Sys2Proof.Machine.execReleaseHold tag site s
  | .setMonitor tag read tolerance limitCode => Sys2Proof.Machine.execSetMonitor tag read tolerance limitCode s
  | .watch tag site => Sys2Proof.Machine.execWatch tag site s
  | .lineControl tag line read settings => Sys2Proof.Machine.execLineControl tag line read settings s
  | .lineStatus tag line clear => Sys2Proof.Machine.execLineStatus tag line clear s
  | .clearFlags tag site flags => Sys2Proof.Machine.execClearFlags tag site flags s
  | .setFlagMask tag read mask => Sys2Proof.Machine.execSetFlagMask tag read mask s
  | .signalSite tag site flags => Sys2Proof.Machine.execSignalSite tag site flags s
  | .openCommissioning tag keyAsserted => Sys2Proof.Machine.execOpenCommissioning tag keyAsserted s
  | .commissionFloor tag site intervals minCycle maxCycle minimums => Sys2Proof.Machine.execCommissionFloor tag site intervals minCycle maxCycle minimums s
  | .lockFloors tag => Sys2Proof.Machine.execLockFloors tag s
  | .readFloor tag read => Sys2Proof.Machine.execReadFloor tag read s
  | .startUpTablesRebuilt => Sys2Proof.Machine.execStartUpTablesRebuilt s

end Sys2Proof.Machine
end

