-- ==== Sys2Proof/WellFormed.lean ====
section
/-! DEFINITION. Well-formed commands: every operand within what its field of Table 12-4 can carry, or what the event it
stands for allows. A request whose numbers lie outside their owner's ranges is well-formed: the owner refuses it. -/

namespace Sys2Proof

/-- A number that fits in `k` bytes. -/
def fits (k n : Nat) : Bool := decide (n < 256 ^ k)

/-- Every number of a list fits in `k` bytes. -/
def allFit (k : Nat) (l : List Nat) : Bool := l.all (fits k)

/-- A plan header of 10 bytes. -/
def RawHeader.wellFormed (h : RawHeader) : Bool :=
  allFit 1 [h.plan, h.group, h.mode, h.shorten, h.lengthen, h.window, h.cohortKey, h.count] && fits 2 h.cycle

/-- A site entry of 22 bytes. -/
def RawEntry.wellFormed (e : RawEntry) : Bool :=
  allFit 2 [e.site, e.offset] && allFit 1 [e.intervals, e.modeOverride] && decide (e.splits.length = 8)
    && allFit 2 e.splits

/-- A program entry of 4 bytes. -/
def RawProgramEntry.wellFormed (e : RawProgramEntry) : Bool := fits 2 e.start && allFit 1 [e.plan, e.notify]

/-- An event entry of 16 + k bytes. -/
def RawEvent.wellFormed (e : RawEvent) : Bool :=
  allFit 1 [e.id, e.action, e.plan, e.program, e.priority, e.notify]
    && allFit 2 [e.firstDay, e.lastDay, e.start, e.stop] && fits 1 e.groups.length && allFit 1 e.groups

/-- Line settings of 6 bytes. -/
def RawSettings.wellFormed (r : RawSettings) : Bool :=
  allFit 1 [r.enabled, r.bitRate, r.timeout, r.mode, r.polarity, r.manual]

/-- A kind that Table 12-4 gives no request. -/
def unknownKindByte (kind : Byte) : Bool := decide (decodeRequest Seen.nothing kind 0 [] = .unknownKind)

/-- A well-formed command. -/
def Instr.wellFormed : Instr → Bool
  | .powerOn _ _ => true
  | .resetPinAssert _ => true
  | .resetRelease _ _ => true
  | .startupEnd => true
  | .ppsEdge _ => true
  | .ppsAbsence => true
  | .tick => true
  | .slewStep => true
  | .epochRenewal g => decide (1 ≤ g ∧ g ≤ Config.groups)
  | .windowExpiry => true
  | .switchTaken g => decide (1 ≤ g ∧ g ≤ Config.groups)
  | .resolverPass => true
  | .planCheckStart => true
  | .planCheckEnd => true
  | .floorProgrammingEnd _ _ _ => true
  | .lockProgrammingEnd _ => true
  | .commissionEnDeassert => true
  | .storeSectionWritten _ => true
  | .storeEnd => true
  | .emptyRoundEnd l => decide (l < Config.lines)
  | .pollSend l => decide (l < Config.lines)
  | .pollSent l => decide (l < Config.lines)
  | .reportStartBit l => decide (l < Config.lines)
  | .replyTimeout l => decide (l < Config.lines)
  | .reportGapTimeout l b => decide (l < Config.lines) && decide (1 ≤ b.length ∧ b.length ≤ 12)
  | .reportReceived l b => decide (l < Config.lines) && decide (b.length = 13)
  | .stuReport n _ => decide (1 ≤ n ∧ n ≤ Config.sites)
  | .cmReport n => decide (1 ≤ n ∧ n ≤ Config.sites)
  | .zeroJudgement n => decide (1 ≤ n ∧ n ≤ Config.sites)
  | .fuReport n => decide (1 ≤ n ∧ n ≤ Config.sites)
  | .planningLinkByte _ _ => true
  | .frameGapTimeout => true
  | .frameTransmitEnd _ => true
  | .unknownKind _ kind body => unknownKindByte kind && decide (body.length ≤ Config.frameBody)
  | .identify _ => true
  | .status _ => true
  | .restart _ => true
  | .setTime _ d t => fits 2 d && fits 4 t
  | .getTime _ => true
  | .writeSite _ n l a g => fits 2 n && allFit 1 [l, a, g]
  | .readSite _ n => fits 2 n
  | .removeSite _ n => fits 2 n
  | .takeSlot _ => true
  | .writePlanHeader _ n h => fits 1 n && h.wellFormed
  | .writePlanSites _ n f es => allFit 1 [n, f, es.length] && es.all RawEntry.wellFormed
      && decide (3 + 22 * es.length ≤ Config.frameBody)
  | .postPlan _ n m => allFit 1 [n, m]
  | .withdrawPlan _ n => fits 1 n
  | .readPlan _ n f k => allFit 1 [n, f, k]
  | .listPlans _ _ f k => allFit 1 [f, k]
  | .writeDayProgram _ p es => allFit 1 [p, es.length] && es.all RawProgramEntry.wellFormed
      && decide (2 + 4 * es.length ≤ Config.frameBody)
  | .readDayProgram _ p => fits 1 p
  | .writeWeek _ g ps => fits 1 g && decide (ps.length = 7) && allFit 1 ps
  | .readWeek _ g => fits 1 g
  | .writeEvent _ e => e.wellFormed
  | .readEvent _ id m => allFit 1 [id, m]
  | .deleteEvent _ id => fits 1 id
  | .forcePlan _ p d gs => fits 1 p && fits 2 d && fits 1 gs.length && allFit 1 gs
  | .releaseForce _ gs => fits 1 gs.length && allFit 1 gs
  | .storeTables _ => true
  | .groupStatus _ g => fits 1 g
  | .siteStatus _ n => fits 2 n
  | .releaseHold _ n => fits 2 n
  | .setMonitor _ r t c => allFit 1 [r, t, c]
  | .watch _ n => fits 2 n
  | .lineControl _ l r v => allFit 1 [l, r] && v.wellFormed
  | .lineStatus _ l c => allFit 1 [l, c]
  | .clearFlags _ n _ => fits 2 n
  | .setFlagMask _ r _ => fits 1 r
  | .signalSite _ n _ => fits 2 n
  | .openCommissioning _ _ => true
  | .commissionFloor _ n k a b fs => allFit 2 [n, a, b] && allFit 1 [k, fs.length] && allFit 2 fs
  | .lockFloors _ => true
  | .readFloor _ r => fits 2 r.site
  | .startUpTablesRebuilt => true

end Sys2Proof
end

