-- ==== Sys2Proof/Safety.lean ====
section
/-! DEFINITION. What the statements speak of: a part that can serve, what is due at a count, the invariants that every
command keeps, and what may and may not change for good. -/

namespace Sys2Proof.Machine

/-- The part is RUNNING and serves a request as it arrives: the reply slot and the request queue are empty, and RESTART has
not been served (R182, R191). -/
def Ready (s : State) : Prop := s.startUp.phase = .running ∧ canServe s.link = true

/-- The outcome of a request that is answered, in the state it leaves: a next state, once the Link Controller has acted. -/
def answered (kind tag : Byte) (status : Status) (fields : List Field) (s : State) :
    Host.Outcome State Fault Refusal := .next (pump (answer kind tag status fields s))

/-- Nothing that falls due at the present count is left to take: no resolver pass asked for, no renewal, no switch. -/
def NothingDue (s : State) : Prop :=
  s.resolver.owed = [] ∧
  ∀ g, 1 ≤ g → g ≤ Config.groups →
    renewalDue (s.group g) s.now = false ∧ ∀ p, (s.group g).pending = some p → p.instant ≠ s.now

/-- The capture counter does not pass 30,000,000 before the current tick ends (R4). -/
def NoAbsenceInTick (s : State) : Prop :=
  absenceWithin s.time (tickLength s.time - s.time.tickSpent) = false

/-- The advance of the civil clock at a tick and the slew remainder after it (R12): 1 ds at every tick that is no slew step. -/
def CivilAdvance (v : TimeBase) (ds : Nat) (remainder : Int) : Prop :=
  (v.slewPhase ≠ 99 ∧ ds = 1 ∧ remainder = v.slewRemainder) ∨
  (v.slewPhase = 99 ∧ 0 < v.slewRemainder ∧ ds = 2 ∧ remainder = v.slewRemainder - 1) ∨
  (v.slewPhase = 99 ∧ v.slewRemainder = 0 ∧ ds = 1 ∧ remainder = 0) ∨
  (v.slewPhase = 99 ∧ v.slewRemainder < 0 ∧ ds = 0 ∧ remainder = v.slewRemainder + 1)

/-- `s` with the programmer of the floor store at `p` (R136, R138). -/
def programming (s : State) (p : Programmer) : State := { s with floors := { s.floors with programmer := p } }

/-! ### Invariants -/

/-- The Link Controller's lists and counters keep their capacities (R181, R187, R188). -/
def LinkWithin (l : LinkController) : Prop :=
  l.queue.length ≤ Config.requestQueue ∧ l.refusals.length ≤ Config.refusalList
    ∧ l.notices.length ≤ Config.noticeQueue ∧ l.lostCount ≤ 65535 ∧ l.rejectedTotal ≤ 65535
    ∧ l.refusalTotal ≤ 65535

/-- The floor entry that the programmer works on may still be programmed, and the values it writes pass the value check
(R132, R133). -/
def ProgrammerFits (s : State) : Prop :=
  ∀ n v, s.floors.programmer = .floor n v →
    floorFault v = none ∧ (s.floorEntry n).commit = false ∧ (s.floorEntry n).failure = false

/-- The commissioning window: OPEN exactly while its count is 1 to 3000 (R139, R140). -/
def WindowFits (s : State) : Prop :=
  (s.floors.windowOpen = true ↔ s.floors.windowCount ≠ 0) ∧ s.floors.windowCount ≤ Config.windowTicks

/-- Every table is in its canonical form: numbers strictly rising, no record equal to the table's default. -/
def TablesCanonical (s : State) : Prop :=
  Table.wf ResumeRecord.free s.retained.resume = true ∧ Table.wf false s.retained.holds = true
    ∧ Table.wf Slot.empty s.library.slots = true ∧ Table.wf [] s.resolver.programs = true
    ∧ Table.wf (List.replicate 7 0) s.resolver.weeks = true ∧ Table.wf none s.resolver.events = true
    ∧ Table.wf none s.resolver.forces = true ∧ Table.wf Governing.reset s.resolver.governing = true
    ∧ Table.wf GroupRecord.empty s.groups = true ∧ Table.wf Tracker.reset s.trackers = true
    ∧ Table.wf MonitorRecord.reset s.monitor.records = true ∧ Table.wf FloorEntry.blank s.floors.entries = true
    ∧ Table.wf none s.floors.effective = true ∧ Table.wf none s.roster = true
    ∧ Table.wf LinkRecord.reset s.links = true ∧ Table.wf Line.reset s.lines = true
    ∧ Table.wf 0 s.flags.raised = true

/-- Each group's record agrees with its members (R76 to R79): the member count, the in-step count, and no settle judgement
left to make. -/
def GroupFits (s : State) (g : Nat) : Prop :=
  (s.group g).members = (s.membersOf g).length
    ∧ (s.group g).inStep = ((s.membersOf g).filter (countsInStep s)).length
    ∧ ((s.group g).settlePending = true → isSettled s g = false)

/-- While the part is RUNNING every group agrees with its members; before, no group, tracker, round, exchange or report
is there to disagree (R198, R200). -/
def GroupsFit (s : State) : Prop :=
  (s.startUp.phase = .running → ∀ g, 1 ≤ g → g ≤ Config.groups → GroupFits s g)
    ∧ (s.startUp.phase ≠ .running → s.groups = [] ∧ s.trackers = [] ∧ s.handed = { stu := [], cm := [], fu := [] }
        ∧ ∀ l, (s.line l).round = none ∧ (s.line l).exchange = none)

/-- The invariant of the part: canonical tables, capacities of the Link Controller, and what the Floor Store promises. -/
structure Sound (s : State) : Prop where
  tables : TablesCanonical s
  link : LinkWithin s.link
  programmer : ProgrammerFits s
  window : WindowFits s

/-! ### References -/

/-- A slot once a reference on it is released (R35): FREE and emptied where it is RETIRING and that was the last one. -/
def releasedSlot (v : Slot) : Slot :=
  if v.state = .retiring ∧ v.refs ≤ 1 then Slot.empty else { v with refs := v.refs - 1 }

/-- `t` is `s` with a reference on slot `k` released: its number joins the free list where the slot becomes FREE. -/
def Released (s t : State) (k : Nat) : Prop :=
  t.slot k = releasedSlot (s.slot k)
    ∧ t.library.freeList = s.library.freeList
        ++ (if (s.slot k).state = .retiring ∧ (s.slot k).refs ≤ 1 then [k] else [])

/-! ### Resolution (R53, R60) -/

/-- A calendar entry applies to a group at a day and minute: the group is listed, the day lies within the dates and its
weekday is set, and the minute lies in the window of a PLAN entry (R53). -/
def Applies (e : EventEntry) (g day minute : Nat) : Prop :=
  g ∈ e.groups ∧ e.firstDay ≤ day ∧ day ≤ e.lastDay ∧ e.weekdays.getLsbD ((day + 5) % 7) = true
    ∧ ∀ n a b, e.action = .plan n a b → a ≤ minute ∧ minute < b

/-- The entry of an id applies and wins over every other that does: by its priority, and at equal priority by its write
sequence number (R53). -/
def Wins (s : State) (g day minute id : Nat) (e : EventEntry) : Prop :=
  s.event id = some e ∧ Applies e g day minute
    ∧ ∀ k x, k ≠ id → s.event k = some x → Applies x g day minute →
        x.priority < e.priority ∨ (x.priority = e.priority ∧ x.sequence < e.sequence)

/-- No calendar entry applies. -/
def NoEntry (s : State) (g day minute : Nat) : Prop := ∀ k x, s.event k = some x → ¬ Applies x g day minute

/-- Day program `p` is in use, from the PROGRAM entry of id `event`, or with 0 from the week table (R53). -/
def InUse (s : State) (g day minute p event : Nat) : Prop :=
  (∃ e, Wins s g day minute event e ∧ e.action = .program p)
    ∨ (NoEntry s g day minute ∧ event = 0 ∧ (s.week g).getD ((day + 5) % 7) 0 = p ∧ p ≠ 0)

/-- A pass that finds the part as `u` makes a starting request of group `g` to slot `k`, whose plan has header `h` (R60). -/
def Starting (u : State) (day minute g k : Nat) (h : PlanHeader) : Prop :=
  1 ≤ g ∧ g ≤ Config.groups ∧ (u.group g).members ≠ 0 ∧ (u.group g).pending = none
    ∧ mapPlan u (resolve u g day minute).plan = some (.slot k) ∧ (u.group g).current ≠ .slot k
    ∧ (u.slot k).header = some h

/-- `mates` lists, in ascending order, the groups whose starting requests carry the key and the cycle length of `h`. -/
def Mates (u : State) (day minute : Nat) (h : PlanHeader) (mates : List Nat) : Prop :=
  mates.Pairwise (· < ·) ∧ ∀ j, j ∈ mates ↔
    ∃ k v, Starting u day minute j k v ∧ v.cohortKey = h.cohortKey ∧ v.cycle = h.cycle

/-- The cohort of the opening request of group `g` to target `w`, none as the empty list, and its switch instant as ds
after T0 (R60, R69). -/
def OpensWith (u : State) (day minute g : Nat) (t0 : Count) (w : Target) (cohort : List Nat) (d : Nat) : Prop :=
  (w = .free ∧ cohort = [] ∧ d = untilNextZero (u.group g) t0)
    ∨ ∃ k h mates, w = .slot k ∧ (u.slot k).header = some h ∧ Mates u day minute h mates
      ∧ ((h.cohortKey ≠ 0 ∧ 2 ≤ mates.length ∧ cohort = mates
          ∧ d = (mates.map (fun j => untilNextZero (u.group j) t0)).foldl max 0)
        ∨ ((h.cohortKey = 0 ∨ mates.length < 2) ∧ cohort = [] ∧ d = untilNextZero (u.group g) t0))

/-! ### Roster edits -/

/-- WRITE-SITE finds nothing to refuse (R145). -/
def WriteSiteFits (s : State) (n l a g : Nat) : Prop :=
  1 ≤ n ∧ n ≤ 384 ∧ l ≤ 7 ∧ 1 ≤ a ∧ a ≤ 254 ∧ g ≤ 64 ∧ s.storing = false
    ∧ (∀ m e, m ≠ n → s.rosterEntry m = some e → ¬ (e.line = l ∧ e.address = a))
    ∧ ((s.sitesOn l).filter (· != n)).length < 48
    ∧ (g = 0 ∨ ((s.membersOf g).filter (· != n)).length < 48)

/-- What a group keeps when a member leaves or joins and others stay (R76, R77): everything but the member count, the
in-step count, the observed marks and the settle-pending mark. -/
def KeepsSwitch (r v : GroupRecord) : Prop :=
  v.reference = r.reference ∧ v.pending = r.pending ∧ v.cohort = r.cohort ∧ v.lastSwitch = r.lastSwitch

/-- A site of the roster has joined group `g` (R76): one member more, not yet counted in step, and its switch and marks
stand. -/
def JoinsGroup (s t : State) (g : Nat) : Prop :=
  (t.group g).members = (s.group g).members + 1 ∧ (t.group g).inStep = (s.group g).inStep
    ∧ (t.group g).reference = (s.group g).reference ∧ (t.group g).pending = (s.group g).pending
    ∧ (t.group g).lastSwitch = (s.group g).lastSwitch ∧ (t.group g).observed = (s.group g).observed

/-- The first member of an EMPTY group asks for a pass where the clock is valid (R57, R76), and any other for none. -/
def AsksAsFirst (s t : State) (g : Nat) : Prop :=
  ((s.group g).members = 0 → s.time.valid = true →
    t.resolver = { s.resolver with owed := s.resolver.owed ++ [.asked] })
  ∧ ((s.group g).members ≠ 0 ∨ s.time.valid = false → t.resolver = s.resolver)

/-- Group `g` has lost its last member (R77): it is EMPTY, its resume record is at plan 0, and its references on its current
and its pending slot are released, the current one first (assumption log 46). -/
def GroupEmptied (s t : State) (g : Nat) : Prop :=
  t.group g = GroupRecord.empty ∧ t.resumeOf g = ResumeRecord.free ∧ (∀ k, k ≠ g → t.resumeOf k = s.resumeOf k)
  ∧ (∀ c, (s.group g).reference = some c → (s.group g).pending = none → Released s t c.slot)
  ∧ (∀ p k, (s.group g).reference = none → (s.group g).pending = some p → p.target = .slot k → Released s t k)
  ∧ (∀ c p k, (s.group g).reference = some c → (s.group g).pending = some p → p.target = .slot k → c.slot ≠ k →
      t.slot c.slot = releasedSlot (s.slot c.slot) ∧ t.slot k = releasedSlot (s.slot k)
        ∧ t.library.freeList = s.library.freeList
          ++ (if (s.slot c.slot).state = .retiring ∧ (s.slot c.slot).refs ≤ 1 then [c.slot] else [])
          ++ (if (s.slot k).state = .retiring ∧ (s.slot k).refs ≤ 1 then [k] else []))
  ∧ (∀ c p, (s.group g).reference = some c → (s.group g).pending = some p → p.target = .free → Released s t c.slot)
  ∧ ((s.group g).reference = none → (∀ p, (s.group g).pending = some p → p.target = .free) → t.library = s.library)

/-! ### Reports (R157, Table 12-7) -/

/-- The 13 bytes of a report frame stand as they should: sync, report mark and check. -/
def ReportIntact (bytes : List Byte) : Prop :=
  bytes.getD 0 0 = 0x7E ∧ bytes.getD 2 0 = 0x52
    ∧ (bytes.getD 11 0).toNat + 256 * (bytes.getD 12 0).toNat = (crc16 ((bytes.drop 1).take 10)).toNat

/-- The report that the bytes of a frame carry, captured at a count. -/
def reportOf (captured : Count) (bytes : List Byte) : Report :=
  { captured := captured, cycleCounter := bytes.getD 3 0
    elapsed := ((bytes.getD 4 0).toNat + 256 * (bytes.getD 5 0).toNat) % 4096
    running := if (bytes.getD 6 0).getLsbD 0 then some (bytes.getD 7 0) else none
    held := if (bytes.getD 6 0).getLsbD 1 then some (bytes.getD 8 0) else none
    flags := bytes.getD 9 0, relayAck := bytes.getD 10 0 }

/-! ### What can happen to one-time storage -/

/-- Every bit that is programmed stays programmed (R129): image bits and marks of every floor entry, and the lock mark. -/
def NothingErased (s t : State) : Prop :=
  (∀ n, (s.floorEntry n).image &&& ~~~(t.floorEntry n).image = 0
    ∧ ((s.floorEntry n).commit = true → (t.floorEntry n).commit = true)
    ∧ ((s.floorEntry n).failure = true → (t.floorEntry n).failure = true))
  ∧ (s.floors.lockMark = true → t.floors.lockMark = true)

/-! ### Orders -/

/-- An order holds what a decision of the order computation gives (R101 step 2). -/
def OrderHolds (o : Order) (d : Decision) : Prop :=
  o.kind = d.kind ∧ o.length = d.length ∧ o.splits = d.splits ∧ o.correction = d.correction

/-- The reference length of a site at a count (R94): C of the target in force there, or of the current target where that
is FREE. -/
def ReferenceLength (s : State) (n : Nat) (z : Count) (k : Nat) : Prop :=
  (∃ t, targetInForce s n z = .coordinated t ∧ k = t.cycle)
    ∨ (targetInForce s n z = .free ∧ ∃ t, currentTarget s n = .coordinated t ∧ k = t.cycle)

/-- A site entry that a plan check has passed against a floor (R28): as many splits as floor minimums, each at or above its
minimum, summing to the cycle length, which lies within the floor's limits. -/
def MeetsFloor (t : SiteTarget) (f : FloorValues) : Prop :=
  t.floor = some f ∧ t.splits ≠ [] ∧ t.splits.length = f.minimums.length ∧ sumOf t.splits = t.cycle
    ∧ (∀ p ∈ List.zip t.splits f.minimums, p.2 ≤ p.1) ∧ f.minCycle ≤ t.cycle ∧ t.cycle ≤ f.maxCycle

/-- An order that a controller could be sent: the splits sum to its length, each lies at or above its floor minimum, and
the length lies within the floor's limits. -/
def OrderKeepsFloor (d : Decision) (f : FloorValues) : Prop :=
  d.splits.length = f.minimums.length ∧ d.length = some (sumOf d.splits)
    ∧ (∀ p ∈ List.zip d.splits f.minimums, p.2 ≤ p.1) ∧ f.minCycle ≤ sumOf d.splits
    ∧ sumOf d.splits ≤ f.maxCycle

/-- Between `s` and `u` a FREEING order has been issued to site `n`, unless the newest order of its ring was FREE (R104): a FREE
order without a basis joins the ring, whose oldest of four is dropped first, under the next sequence number, and fills the
pending-order slot; the last computation is of kind FREE (assumption log 16). -/
def FreeingIssued (s u : State) (n : Nat) : Prop :=
  let t := s.tracker n
  (∀ o, t.ring.getLast? = some o → o.kind = .free →
    (u.tracker n).ring = t.ring ∧ (u.tracker n).nextSequence = t.nextSequence ∧
    (u.tracker n).computation = t.computation ∧ (u.linkOf n).pendingOrder = (s.linkOf n).pendingOrder) ∧
  ((∀ o, t.ring.getLast? = some o → o.kind ≠ .free) →
    ∃ x : Order,
      x = { sequence := t.nextSequence, kind := .free, length := none, splits := [], correction := 0, target := none,
            basis := none, cause := .freeing } ∧
      (u.tracker n).ring = (if 4 ≤ t.ring.length then t.ring.tail else t.ring) ++ [x] ∧
      (u.tracker n).nextSequence = t.nextSequence + 1 ∧
      (u.tracker n).computation = some { lagObserved := none, needs := none, limits := none, kind := .free,
                                         correction := 0, reason := .nothing } ∧
      (u.linkOf n).pendingOrder = some x)

/-! ### Members at a change of their group's switch (R103, R104) -/

/-- A coordinated site waits for the acknowledgement of its order, and the newest order of its ring has basis `b` (R103). -/
def AwaitsOrder (s : State) (n : Nat) (b : Basis) : Prop :=
  (s.tracker n).state.isCoordinated = true ∧ (s.linkOf n).pendingOrder ≠ none
    ∧ ∃ o, (s.tracker n).ring.getLast? = some o ∧ o.basis = some b

/-- `x` is a site's order computed afresh on basis `b` against the target in force there as `s` has it (R103): under the
site's next sequence number, with cause RECOMPUTE. -/
def RecomputedOrder (s : State) (n : Nat) (b : Basis) (x : Order) : Prop :=
  x.cause = .recompute ∧ x.basis = some b ∧ x.sequence = (s.tracker n).nextSequence
    ∧ x.target = (targetInForce s n b.zp).id
    ∧ OrderHolds x (decideOrder (targetInForce s n b.zp) b.zp (s.held n) ((s.tracker n).lastReport.any (·.blocking)))

/-- `s` with the groups and the slots as `t` has them: how the targets of a group's members stand under its new switch. -/
def underSwitchOf (s t : State) : State := { s with groups := t.groups, library := t.library }

/-- An opening, a retarget or a cancel has reached the members of group `g` (R103): each member that waits for an
acknowledgement has its order computed afresh under the new switch, and every other site is as it was. -/
def MembersRecomputed (s t : State) (g : Nat) : Prop :=
  (∀ n ∈ s.membersOf g, ∀ b, AwaitsOrder s n b →
    ∃ x, RecomputedOrder (underSwitchOf s t) n b x ∧ (t.linkOf n).pendingOrder = some x
      ∧ (t.tracker n).ring.getLast? = some x)
  ∧ ∀ n, (n ∉ s.membersOf g ∨ ∀ b, ¬ AwaitsOrder s n b) → t.tracker n = s.tracker n ∧ t.linkOf n = s.linkOf n

/-- A switch taken has reached the members of group `g` (R103, R104): the orders that wait are computed afresh, each
member's target before the switch is its previous target, a FREE member whose new current target is a slot is ACQUIRING
without anchor, and a coordinated one whose new current target is FREE is FREE, with a FREEING order unless the newest order
of its ring is FREE. -/
def MembersFollow (s t : State) (g : Nat) : Prop :=
  (∀ n ∈ s.membersOf g,
    (t.tracker n).previous = some (currentTarget s n)
    ∧ ((s.tracker n).state = .offline → (t.tracker n).state = .offline ∧ t.linkOf n = s.linkOf n)
    ∧ ((s.tracker n).state = .free → t.linkOf n = s.linkOf n
        ∧ (t.tracker n).state = (if (currentTarget (underSwitchOf s t) n).isFree then .free else .acquiring)
        ∧ ((currentTarget (underSwitchOf s t) n).isFree = false → (t.tracker n).anchor = false))
    ∧ ((s.tracker n).state.isCoordinated = true →
        ((currentTarget (underSwitchOf s t) n).isFree = false → (t.tracker n).state = (s.tracker n).state
          ∧ ((∀ b, ¬ AwaitsOrder s n b) → t.linkOf n = s.linkOf n)
          ∧ ∀ b, AwaitsOrder s n b →
              ∃ x, RecomputedOrder (underSwitchOf s t) n b x ∧ (t.linkOf n).pendingOrder = some x)
        ∧ ((currentTarget (underSwitchOf s t) n).isFree = true → (t.tracker n).state = .free
          ∧ ∃ o, (t.tracker n).ring.getLast? = some o ∧ o.kind = .free
            ∧ ((∀ b, ¬ AwaitsOrder s n b) →
                (∀ y, (s.tracker n).ring.getLast? = some y → y.kind = .free → o = y ∧ t.linkOf n = s.linkOf n)
                ∧ ((∀ y, (s.tracker n).ring.getLast? = some y → y.kind ≠ .free) →
                    o.cause = .freeing ∧ o.basis = none ∧ (t.linkOf n).pendingOrder = some o))
            ∧ ∀ b, AwaitsOrder s n b →
                ∃ x, RecomputedOrder (underSwitchOf s t) n b x ∧ x ∈ (t.tracker n).ring
                  ∧ (t.linkOf n).pendingOrder = some o ∧ (x.kind = .free → o = x)
                  ∧ (x.kind ≠ .free → o.cause = .freeing ∧ o.basis = none))))
  ∧ ∀ n, n ∉ s.membersOf g → t.tracker n = s.tracker n ∧ t.linkOf n = s.linkOf n

/-! ### Rounds (R153) -/

/-- `list` is the poll list of a line for a round of a counter (R153): in round 0 every roster site of the line, in rounds 1
to 7 those that are ONLINE, in ascending address order. -/
def IsPollList (s : State) (l counter : Nat) (list : List Nat) : Prop :=
  list.Perm ((s.sitesOn l).filter (fun n => decide (counter = 0) || (s.linkOf n).online))
    ∧ list.Pairwise (fun a b => addressOf s a ≤ addressOf s b)

/-- The round of line `l` has ended in `t` (R153): the round counter has advanced by one, from 7 to 0, and a line that is
enabled and has entries begins its next round, while the part is RUNNING, with the list of that counter. -/
def NextRound (s t : State) (l : Nat) : Prop :=
  (t.line l).roundCounter = ((s.line l).roundCounter + 1) % 8
    ∧ ((t.line l).settings.enabled = true → t.startUp.phase = .running → t.sitesOn l ≠ [] →
        ∃ list, IsPollList t l (t.line l).roundCounter list
          ∧ (t.line l).round = some { remaining := list, formedEmpty := decide (list = []) })
    ∧ ((t.line l).settings.enabled = false ∨ t.startUp.phase ≠ .running ∨ t.sitesOn l = [] → (t.line l).round = none)

/-- An exchange of round `r` has ended in `t` (R153): with sites left in its list the round goes on, and after the last one
the next begins. -/
def RoundGoesOn (s t : State) (l : Nat) (r : Round) : Prop :=
  (t.line l).exchange = none
    ∧ (r.remaining ≠ [] → (t.line l).round = some r ∧ (t.line l).roundCounter = (s.line l).roundCounter)
    ∧ (r.remaining = [] → NextRound s t l)

/-! ### The plan check (Table 2-4) -/

/-- Check `c` of Table 2-4 fails on the record of slot `n` at entry index `i`, 255 where the failure belongs to no entry (R26
to R29). -/
def FailsAt (s : State) (n : Nat) (supersede : Bool) (c i : Nat) : Prop :=
  ((s.slot n).header = none ∧ c = 1 ∧ i = 255) ∨
  ∃ h, (s.slot n).header = some h ∧
    ((c = 1 ∧ i < h.count ∧ Table.get none (s.slot n).entries i = none) ∨
     (c = 10 ∧ i = 255 ∧ supersede = false ∧ ∃ k v, (k, v) ∈ s.library.slots ∧ k ≠ n ∧ v.isPosted h.plan = true) ∨
     ∃ e, i < h.count ∧ Table.get none (s.slot n).entries i = some e ∧
      ((c = 2 ∧ ∀ r, s.rosterEntry e.site = some r → r.group ≠ h.group) ∨
       (c = 3 ∧ ∃ j x, j < i ∧ Table.get none (s.slot n).entries j = some x ∧ x.site = e.site) ∨
       (c = 4 ∧ s.effectiveFloor e.site = none) ∨
       (c = 6 ∧ sumOf e.splits ≠ h.cycle) ∨
       (c = 9 ∧ h.cycle ≤ e.offset) ∨
       ∃ f, s.effectiveFloor e.site = some f ∧
        ((c = 5 ∧ e.splits.length ≠ f.intervals) ∨
         (c = 7 ∧ ∃ p ∈ List.zip e.splits f.minimums, p.1 < p.2) ∨
         (c = 8 ∧ (h.cycle < f.minCycle ∨ f.maxCycle < h.cycle)))))

/-- The entry places of `w` below the count of the header of `v` hold what those of `v` hold, and all others are empty (R30
step 1). -/
def OnlyRecordPlaces (v w : Slot) : Prop :=
  ∃ h, v.header = some h ∧ (∀ i, i < h.count → Table.get none w.entries i = Table.get none v.entries i) ∧
    ∀ i, h.count ≤ i → Table.get none w.entries i = none

/-! ### What a reset leaves of one-time storage (R135, R138) -/

/-- A reset that finds the programmer of `s` at work leaves `entries` and `lockMark`, where `cut` says how far the programming
had come (assumption log 12). Of a floor entry only bits of the image carried are added, the commit mark only where the
entry then equals that image, and the failure mark where it had taken; no other entry changes. -/
def CutLeaves (s : State) (cut : ProgramCut) (entries : Table FloorEntry) (lockMark : Bool) : Prop :=
  (s.floors.programmer = .idle → entries = s.floors.entries ∧ lockMark = s.floors.lockMark) ∧
  (s.floors.programmer = .lock → entries = s.floors.entries ∧ lockMark = (s.floors.lockMark || cut.lock)) ∧
  (∀ n v, s.floors.programmer = .floor n v → lockMark = s.floors.lockMark ∧
    (∀ k, k ≠ n → Table.get FloorEntry.blank entries k = s.floorEntry k) ∧
    ∃ e, Table.get FloorEntry.blank entries n = e ∧
      e.image = (s.floorEntry n).image ||| (v.image &&& cut.bits) ∧
      (e.commit = true ↔ (s.floorEntry n).commit = true ∨ (cut.commit = true ∧ e.image = v.image)) ∧
      (e.failure = true ↔ (s.floorEntry n).failure = true ∨ cut.failure = true))

/-! ### Lines and poll lists at a roster edit (R153, R154, R163) -/

/-- The line state is the one that the enabled setting, the entries and the online marks give (R163). -/
def HasLineState (t : State) (l : Nat) : Prop :=
  ((t.line l).settings.enabled = false → (t.line l).state = .disabled) ∧
  ((t.line l).settings.enabled = true →
    (t.sitesOn l = [] → (t.line l).state = .idle) ∧
    (t.sitesOn l ≠ [] →
      ((∀ n ∈ t.sitesOn l, (t.linkOf n).online = true) → (t.line l).state = .active) ∧
      ((∀ n ∈ t.sitesOn l, (t.linkOf n).online = false) → (t.line l).state = .down) ∧
      ((∃ n ∈ t.sitesOn l, (t.linkOf n).online = true) → (∃ n ∈ t.sitesOn l, (t.linkOf n).online = false) →
        (t.line l).state = .degraded)))

/-- An exchange after an edit of site `n`: its outcome is void where it is with that site (R154). -/
def voidedFor (n : Nat) (x : Option Exchange) : Option Exchange :=
  x.map (fun x => if x.site = n then { x with void := true } else x)

/-- Site `n` has left the poll list of line `l` in `t` (R153, R154): its exchange in flight is void, and the round goes on
without it. The round of a line that keeps no entry has ended, its counter advanced, and one that has nothing left to poll is
followed by the next at once (assumption log 30). -/
def LeavesLine (s t : State) (l n : Nat) : Prop :=
  (t.line l).exchange = voidedFor n (s.line l).exchange ∧
  ∀ r, (s.line l).round = some r →
    (t.sitesOn l = [] → (t.line l).round = none ∧ (t.line l).roundCounter = ((s.line l).roundCounter + 1) % 8) ∧
    (t.sitesOn l ≠ [] →
      ((s.line l).exchange = none ∧ r.formedEmpty = false ∧ r.remaining.filter (· != n) = [] → NextRound s t l) ∧
      ((s.line l).exchange ≠ none ∨ r.formedEmpty = true ∨ r.remaining.filter (· != n) ≠ [] →
        (t.line l).round = some { r with remaining := r.remaining.filter (· != n) } ∧
        (t.line l).roundCounter = (s.line l).roundCounter))

/-- A site has come onto line `l` in `t` (R153): a round under way stands, and an enabled line without one begins one with the
list of its round counter. -/
def JoinsLine (s t : State) (l : Nat) : Prop :=
  (∀ r, (s.line l).round = some r →
    (t.line l).round = some r ∧ (t.line l).roundCounter = (s.line l).roundCounter) ∧
  ((s.line l).round = none → (t.line l).roundCounter = (s.line l).roundCounter ∧
    ((s.line l).settings.enabled = false → (t.line l).round = none) ∧
    ((s.line l).settings.enabled = true → ∃ list, IsPollList t l (t.line l).roundCounter list ∧
      (t.line l).round = some { remaining := list, formedEmpty := decide (list = []) }))

/-! ### Fields behind presence bytes (R204) -/

/-- A field behind the presence bytes that may be absent, `zero` in its place where it is. -/
def maybe {α : Type} (o : Option α) (zero : α) (f : α → Field) : Option Bool × List Field :=
  opt (may o zero (fun v => [f v]))

/-- A field behind the presence bytes that is never absent. -/
def surely (f : Field) : Option Bool × List Field := opt (always [f])

/-! ### Frames that arrive (R181) -/

/-- What a request's command first tells the part beside its frame: the level of COMMISSION_EN, and with READ-FLOOR the bits
programmed so far (assumption log 11, 29). -/
def toldBeside (i : Instr) (s : State) : State :=
  match i with
  | .openCommissioning _ key => readKey key s
  | .readFloor _ read => look read.seen s
  | _ => s

/-- A good frame that comes where it cannot be served is placed by the first case that applies (R181): the request queue takes
it below 4 records; else the refusal list takes its kind and tag below 4; else it is rejected with OVERRUN (R180). -/
def FramePlaced (kind tag : Byte) (body : List Byte) (v : State) (outcome : Host.Outcome State Fault Refusal) : Prop :=
  (v.link.queue.length < 4 → outcome = .next (pump (v.setLink
    { v.link with queue := v.link.queue
        ++ [{ kind := kind, tag := tag, body := body, arrived := v.time.count }] }))) ∧
  (4 ≤ v.link.queue.length → v.link.refusals.length < 4 → outcome = .next (pump (v.setLink
    { v.link with refusals := v.link.refusals ++ [(kind, tag)],
                  refusalTotal := min 65535 (v.link.refusalTotal + 1) }))) ∧
  (4 ≤ v.link.queue.length → 4 ≤ v.link.refusals.length → outcome = .next (pump (raise .frameRejected
    ([.code 4, .total (7 + body.length)] ++ withPresence [maybe (some body.length) 0 .total,
      maybe (some kind.toNat) 0 .byte, maybe (some tag.toNat) 0 .byte, surely (.count v.time.count)])
    (v.setLink { v.link with framer := .hunt, rejectedTotal := min 65535 (v.link.rejectedTotal + 1) }))))

/-! ### Notices (R187, Table 12-9) -/

/-- The notices of a list raised one after another. -/
def raiseAll (l : List (NoticeKind × List Field)) (s : State) : State := l.foldl (fun u n => raise n.1 n.2 u) s

/-- What the Link Controller holds in `t` is what it held in `s`, with the notices of `l` raised one after another. -/
def Notices (s t : State) (l : List (NoticeKind × List Field)) : Prop := t.link = (raiseAll l s).link

/-- Every notice of a list is of one of some kinds. -/
def OfKinds (kinds : List NoticeKind) (l : List (NoticeKind × List Field)) : Prop := ∀ x ∈ l, x.1 ∈ kinds

/-- The members of a group that are eligible for the settle judgement: coordinated, with the hold mark clear (R79). -/
def eligibleIn (s : State) (g : Nat) : List Nat :=
  (s.membersOf g).filter (fun n => (s.tracker n).state.isCoordinated && !s.held n)

/-- What the settle judgement of a group raises (R79): GROUP-SETTLED where it is pending, a member is eligible and every
eligible one is observed. -/
def settledNotices (s : State) (g : Nat) : List (NoticeKind × List Field) :=
  if (s.group g).settlePending = true ∧ eligibleIn s g ≠ [] ∧ ∀ n ∈ eligibleIn s g, n ∈ (s.group g).observed then
    [(.groupSettled,
      [.byte g, .byte (match (s.group g).reference with | some c => c.slot | none => 255),
       .byte (match (s.group g).reference with | some c => c.plan | none => 0),
       .count ((s.group g).lastSwitch.getD 0), .count s.time.count,
       .signed (sdiff s.time.count ((s.group g).lastSwitch.getD 0)), .byte (eligibleIn s g).length])]
  else []

/-- What a change of a site's hold mark raises (R79, R120): GROUP-SETTLED where the site is coordinated and the change settles
its group. -/
def holdNotices (s : State) (n : Nat) (mark : Bool) : List (NoticeKind × List Field) :=
  if s.groupOf n ≠ 0 ∧ (s.tracker n).state.isCoordinated = true then settledNotices (s.setHeld n mark) (s.groupOf n)
  else []

/-- What a change of a site's tracker state raises: GROUP-SETTLED where the site becomes eligible or ineligible and that
settles its group (R79, R108), and after it (assumption log 37) SITE-STATE where OFFLINE or FREE is the old or the new state or
the site enters ACQUIRING (R110). -/
def stateNotices (s : State) (n : Nat) (new : TrackerState) (cause : StateCause) : List (NoticeKind × List Field) :=
  (if s.groupOf n ≠ 0 ∧ (s.tracker n).state.isCoordinated ≠ new.isCoordinated ∧ s.held n = false then
    settledNotices (s.setTracker n { s.tracker n with state := new }) (s.groupOf n) else []) ++
  (if (s.tracker n).state ≠ new ∧
      ((s.tracker n).state.isCoordinated = false ∨ new.isCoordinated = false ∨ new = .acquiring) then
    [(.siteState, [.site n, .byte (s.groupOf n), .code (s.tracker n).state.code, .code new.code, .code cause.code,
      .count s.time.count, .mark (s.held n)])]
  else [])

/-- LINE-STATE where the state of a line is another in `t` than in `s`, naming the site that caused it (R163). -/
def lineNotices (s t : State) (l : Nat) (site : Option Nat) : List (NoticeKind × List Field) :=
  if (s.line l).state = (t.line l).state then []
  else [(.lineState,
    [.byte l, .code (s.line l).state.code, .code (t.line l).state.code, .byte (t.sitesOn l).length,
     .byte ((t.sitesOn l).filter (fun n => (t.linkOf n).online)).length] ++
    withPresence [opt (may site 0 (fun n => [.site n])), opt (always [.count s.time.count])])]

/-- Held site `n` has been released (R121, R106, R120): hold mark, deviation count and sign are cleared; a coordinated site is
ACQUIRING without anchor, and another keeps its state. GROUP-SETTLED is raised where the group is settled with the site eligible
again, its settle judgement then no longer pending (R79), and SITE-STATE where the site was SEEKING or IN-STEP (R110), in this
order (assumption log 37). -/
def SiteReleased (s t : State) (n : Nat) : Prop :=
  t.held n = false ∧ (∀ k, k ≠ n → t.held k = s.held k ∧ t.tracker k = s.tracker k ∧ t.monitorOf k = s.monitorOf k) ∧
  t.monitorOf n = { s.monitorOf n with deviations := 0, sign := none } ∧
  ((s.tracker n).state.isCoordinated = true →
    t.tracker n = { s.tracker n with state := .acquiring, anchor := false }) ∧
  ((s.tracker n).state.isCoordinated = false → t.tracker n = s.tracker n) ∧
  (∀ k, k ≠ s.groupOf n → t.group k = s.group k) ∧
  t.group (s.groupOf n) = { s.group (s.groupOf n) with
    settlePending := (s.group (s.groupOf n)).settlePending && decide (holdNotices s n false = []) } ∧
  Notices s t (holdNotices s n false ++
    (if (s.tracker n).state = .seeking ∨ (s.tracker n).state = .inStep then
      stateNotices (s.setHeld n false) n .acquiring .holdReleased else [])) ∧
  t.links = s.links ∧ t.roster = s.roster ∧ t.library = s.library ∧ t.time = s.time

/-- The sites of a list have been released one after another. -/
def SitesReleased : List Nat → State → State → Prop
  | [], s, t => t = s
  | n :: rest, s, t => ∃ u, SiteReleased s u n ∧ SitesReleased rest u t

/-- The change of site `n` from group `old` to the group of its new entry, with line and address as they were, has reached
its tracker (R105): the previous target and the anchor are cleared; an OFFLINE site stays so, and another is ACQUIRING where its
new current target is a slot and FREE where it is not, with a FREEING order (R104) where it was coordinated. What is raised, in
this order (assumption log 37): GROUP-SETTLED of a group that keeps members and is settled by the leaving (R79), GROUP-SETTLED
of the new group where the site is eligible there, and SITE-STATE with the new group (assumption log 39) and cause ROSTER
(R110). -/
def SiteRegrouped (s t : State) (n old : Nat) (e : RosterEntry) : Prop :=
  let before := s.tracker n
  let after := t.tracker n
  let moved := s.setRosterEntry n (some e)
  (before.state = .offline → after.state = .offline) ∧
  (before.state ≠ .offline → after.state = if (currentTarget t n).isFree then .free else .acquiring) ∧
  after = { before with previous := none, anchor := false, state := after.state, ring := after.ring,
                        nextSequence := after.nextSequence, computation := after.computation } ∧
  t.linkOf n = { s.linkOf n with pendingOrder := (t.linkOf n).pendingOrder } ∧
  (before.state.isCoordinated = true → after.state = .free → FreeingIssued s t n) ∧
  (before.state.isCoordinated = false ∨ after.state ≠ .free →
    after.ring = before.ring ∧ after.nextSequence = before.nextSequence ∧ after.computation = before.computation ∧
    t.linkOf n = s.linkOf n) ∧
  Notices s t
    ((if old ≠ 0 ∧ 2 ≤ (s.group old).members then settledNotices moved old else []) ++
     (if e.group ≠ 0 ∧ after.state.isCoordinated = true ∧ s.held n = false then
        settledNotices (moved.setTracker n { before with state := after.state }) e.group else []) ++
     (if before.state ≠ after.state ∧
        (before.state.isCoordinated = false ∨ after.state.isCoordinated = false ∨ after.state = .acquiring) then
        [(.siteState, [.site n, .byte e.group, .code before.state.code, .code after.state.code,
          .code StateCause.roster.code, .count s.time.count, .mark (s.held n)])] else []))

/-- SWITCH-DONE (R80): the group, the references before and after, whether the switch was taken at once, E and C, the opening
count, and the cohort at taking. -/
def switchDone (g : Nat) (old new : Option Reference) (immediate : Bool) (opening : Count) (cohort : List Nat) :
    NoticeKind × List Field :=
  (.switchDone,
    [.byte g, .byte (match old with | some c => c.slot | none => 255),
     .byte (match old with | some c => c.plan | none => 0), .byte (match new with | some c => c.slot | none => 255),
     .byte (match new with | some c => c.plan | none => 0), .mark immediate] ++
    withPresence [opt (may (new.map (·.epoch)) 0 (fun e => [.count e])),
      opt (may (new.map (·.cycle)) 0 (fun c => [.length c])), opt (always [.count opening]),
      opt (decide (cohort ≠ []), .byte cohort.length :: cohort.map .byte)])

/-- What a pass at a day and minute raises as it resolves a group to `r` (R55, R56): PLAN-MISSING where the plan maps to
nothing and the missing record is another, and ENTRY-TAKEN for an event id and for a program entry that are new and carry
the notify mark. -/
def passNotices (s : State) (day minute g : Nat) (r : Resolution) : List (NoticeKind × List Field) :=
  let entry : List (Option Bool × List Field) :=
    [opt (may (r.source.programEntry.map (·.1)) 0 (fun p => [.byte p])),
     opt (may (r.source.programEntry.map (·.2)) 0 (fun m => [.minute m]))]
  let before := (s.governing g).source
  let taken (kind : SourceKind) : NoticeKind × List Field :=
    (.entryTaken, [.byte g, .code kind.code, .byte r.source.eventId] ++ withPresence
      (entry ++ [sentinel [.byte r.plan], opt (always [.mark r.carry]), opt (always [.day day]),
        opt (always [.minute minute])]))
  (if mapPlan s r.plan = none ∧ (s.governing g).missing ≠ some (r.source, r.plan) then
    [(.planMissing, [.byte g, .code r.source.kind.code, .byte r.source.eventId] ++ withPresence
      (entry ++ [sentinel [.byte r.plan], opt (always [.day day]), opt (always [.minute minute])]))] else []) ++
  (if r.source.eventId ≠ 0 ∧ r.source.eventId ≠ before.eventId
      ∧ (match s.event r.source.eventId with | some e => e.notify | none => false) = true then [taken .event] else []) ++
  (if r.source.programEntry ≠ before.programEntry
      ∧ (match r.source.programEntry with
          | some (p, m) => (s.program p).any (fun e => decide (e.start = m) && e.notify)
          | none => false) = true then [taken .programEntry] else [])

/-! ### What the replies that only read report (Tables 12-1 and 12-8; presence bytes and widths: assumption log 17) -/

/-- READ-PLAN (R37): the slot's state and references, its check code, the supersede mark of a CHECKING slot, the header, and
the entries asked for. -/
def readPlanFields (s : State) (n first number : Nat) : List Field :=
  let v := s.slot n
  [.code v.state.code, .byte v.refs] ++ withPresence
    ([maybe v.checkCode 0 .checkCode, maybe (if v.state = .checking then some v.supersede else none) false .mark,
      opt (may v.header PlanHeader.absent PlanHeader.fields)] ++
    (List.range number).map (fun i =>
      opt (may (Table.get none v.entries (first + i)) SiteEntry.absent SiteEntry.fields)))

/-- LIST-PLANS (R38): the free list, the check queue, and a line for each slot asked for that is in the selection. -/
def listPlansFields (s : State) (selection : Byte) (first number : Nat) : List Field :=
  let shown := ((List.range number).map (· + first)).filter (fun n =>
    decide ((s.slot n).state ≠ .free) && (decide (selection = 0) || selection.getLsbD ((s.slot n).state.code - 1)))
  [.byte s.library.freeList.length, .byte (match s.library.freeList with | n :: _ => n | [] => 255),
   .byte s.library.checkQueue.length, .byte shown.length] ++
  shown.flatMap (fun n =>
    let v := s.slot n
    let h (f : PlanHeader → Nat) : Nat := match v.header with | some h => f h | none => 0
    [.byte n, .code v.state.code] ++ withPresence
      [sentinel [.byte (h (·.plan))], maybe (v.header.map (·.group)) 0 .byte, maybe (v.header.map (·.cycle)) 0 .length,
       maybe (v.header.map (·.cohortKey)) 0 .byte, sentinel [.byte (h (·.count))], sentinel [.byte v.refs],
       maybe v.checkCode 0 .checkCode,
       maybe (if v.state = .checking then s.library.checkQueue.findIdx? (fun k => k == n) else none) 0 .byte])

/-- READ-SITE (R148). -/
def readSiteFields (s : State) (n : Nat) (e : RosterEntry) : List Field :=
  let k := s.linkOf n
  [.byte e.line, .byte e.address, .byte e.group, .mark k.online, .byte k.misses] ++ withPresence
    [maybe (k.pendingOrder.map (·.sequence.toNat)) 0 .byte, maybe (k.pendingOrder.map (·.kind.code)) 0 .code,
     maybe (k.pendingOrder.bind (·.length)) 0 .length, surely (.flags k.relay), surely (.flags k.relayInFlight),
     maybe (k.lastOutcome.map (·.code)) 0 .code, surely (.code (s.line e.line).state.code)]

/-- A target's identity: its slot, 255 for none, and its switch instant. -/
def identityFields (i : Option TargetId) : List (Option Bool × List Field) :=
  [sentinel [.byte (match i with | some i => i.slot | none => 255)], maybe (i.map (·.instant)) 0 .count]

/-- An order of the ring: sequence, kind, L, n, splits, d, target slot and switch instant, basis and cause. -/
def ringFields (o : Order) : List Field :=
  [.byte o.sequence.toNat, .code o.kind.code, .length (o.length.getD 0), .byte o.splits.length, .places o.splits,
   .length o.correction, .byte (match o.target with | some i => i.slot | none => 255),
   .count (match o.target with | some i => i.instant | none => 0),
   .count (match o.basis with | some b => b.zk | none => 0), .length (match o.basis with | some b => b.lk | none => 0),
   .count (match o.basis with | some b => b.zp | none => 0), .code o.cause.code]

/-- A number of cycles: 255 for unbounded, 254 for that many or more (R126). -/
def cycleCountField (k : Option Nat) : Field := .byte (match k with | none => 255 | some n => min 254 n)

/-- SITE-STATUS (R111, R168): the site's roster entry, tracker, monitor record, hold mark and raised flags; its last report,
target in force and previous target; its orders and last computation; and the ATTN level at the end (assumption log 42). -/
def siteStatusFields (s : State) (n : Nat) (e : RosterEntry) : List Field :=
  let t := s.tracker n
  let r := t.lastReport
  let target := match targetInForce s n s.time.count with | .coordinated x => some x | .free => none
  let needs := t.computation.bind (·.needs)
  let limits := t.computation.bind (·.limits)
  [.site n, .byte e.line, .byte e.address, .byte e.group, .code t.state.code, .mark t.anchor, .mark (s.held n),
   .byte (s.monitorOf n).deviations, .flags (s.raisedFlags n)] ++
  withPresence
    ([maybe ((s.monitorOf n).sign.map (·.code)) 0 .code, maybe t.lastZero 0 .count,
      maybe (t.baseline.map (·.toNat)) 0 .byte, maybe (t.stateAtZero.map (·.code)) 0 .code,
      maybe (t.runningAtZero.map (·.toNat)) 0 .byte, maybe (r.map (·.captured)) 0 .count,
      maybe (r.map (·.cycleCounter.toNat)) 0 .byte, maybe (r.map (·.elapsed)) 0 .length,
      maybe ((r.bind (·.running)).map (·.toNat)) 0 .byte, maybe ((r.bind (·.held)).map (·.toNat)) 0 .byte,
      maybe (r.map (·.blocking)) false .mark, maybe t.lagObserved 0 .length] ++
    identityFields (target.map (·.id)) ++
    [maybe (target.map (·.offset)) 0 .length, maybe (target.map (·.cycle)) 0 .length,
     maybe (target.map (·.window)) 0 .length] ++
    identityFields (t.previous.bind (fun x => match x with | .coordinated x => some x.id | .free => none)) ++
    [surely (.byte t.nextSequence.toNat), maybe ((s.linkOf n).pendingOrder.map (·.sequence.toNat)) 0 .byte] ++
    identityFields t.seekBlocked ++
    [maybe (t.computation.bind (·.lagObserved)) 0 .length, maybe (needs.map (·.lag)) 0 .length,
     maybe (needs.map (·.shortenNeed)) 0 .length, maybe (needs.map (·.lengthenNeed)) 0 .length,
     maybe (limits.map (·.smax)) 0 .length, maybe (limits.map (·.lmax)) 0 .length,
     maybe (limits.map (·.shortenCycles)) (some 0) cycleCountField,
     maybe (limits.map (·.lengthenCycles)) (some 0) cycleCountField,
     maybe (t.computation.map (·.kind.code)) 0 .code, maybe (t.computation.map (·.correction)) 0 .length,
     maybe (t.computation.map (·.reason.code)) 0 .code,
     opt (always (.byte t.ring.length :: t.ring.flatMap ringFields))]) ++
  [.mark s.flags.attn]

/-- GROUP-STATUS (R81): the group's record, with the master position and the time to Ts at the present count; how many of its
members are online (assumption log 45), coordinated and held; its governing and its resume record; and its cohort. -/
def groupStatusFields (s : State) (g : Nat) : List Field :=
  let r := s.group g
  let c := r.reference
  let p := r.pending
  let v := s.governing g
  let m := v.missing
  let resume := s.resumeOf g
  let members (q : Nat → Bool) : Field := .byte ((s.membersOf g).filter q).length
  let source (i : Option SourceId) : List (Option Bool × List Field) :=
    [maybe (i.map (·.kind.code)) 0 .code, maybe (i.map (·.eventId)) 0 .byte,
     maybe ((i.bind (·.programEntry)).map (·.1)) 0 .byte, maybe ((i.bind (·.programEntry)).map (·.2)) 0 .minute]
  let k := match p with | some q => (match q.target with | .slot k => some k | .free => none) | none => none
  [.byte g, .code r.state.code, .code (match r.underlying with | some u => u.code | none => 0)] ++
  withPresence
    ([sentinel [.byte ((c.map (·.slot)).getD 255), .byte ((c.map (·.plan)).getD 0)],
      maybe (c.bind (fun c => (s.slot c.slot).checkCode)) 0 .checkCode, maybe (c.map (·.epoch)) 0 .count,
      maybe (c.map (·.cycle)) 0 .length, maybe (c.map (fun c => masterPosition c s.time.count)) 0 .length,
      sentinel [.byte (k.getD 255), .byte ((k.map (planOfSlot s)).getD 0)], maybe (p.map (·.instant)) 0 .count,
      maybe (p.map (fun q => sdiff q.instant s.time.count)) 0 .signed, maybe (p.map (·.opening)) 0 .count,
      maybe r.lastSwitch 0 .count, surely (.byte r.members),
      surely (members (fun n => decide ((s.tracker n).state ≠ .offline))),
      surely (members (fun n => (s.tracker n).state.isCoordinated)), surely (members s.held),
      surely (.byte r.inStep), surely (.mark r.settlePending), surely (.byte r.observed.length)] ++
    source (some v.source) ++ [surely (.mark v.carry), sentinel [.byte v.plan]] ++
    source (m.map (·.1)) ++ [sentinel [.byte ((m.map (·.2)).getD 0)], sentinel [.byte resume.plan],
      maybe resume.checkCode 0 .checkCode, surely (.length resume.cycle), surely (.count resume.epoch),
      opt (decide (r.cohort ≠ []), .byte r.cohort.length :: r.cohort.map .byte)])

/-- READ-FLOOR (R142): of a site, its entry's state, whether it is being programmed, its stored and its effective values, and
whether they differ; of site 0, the summary. -/
def readFloorFields (s : State) (n : Nat) : List Field :=
  let e := s.floorEntry n
  let stored := if e.state = .blank then none else some e.image
  let site := match s.floors.programmer with | .floor k _ => some k | .idle => none | .lock => none
  let entries (st : FloorState) : Field := .total ((upTo 384).filter (fun k => decide ((s.floorEntry k).state = st))).length
  if n = 0 then
    [entries .blank, entries .dirty, entries .committed, entries .failed, .total s.floors.effective.length,
     .mark s.floors.lockMark, .mark s.floors.lockInEffect, .code (if s.floors.windowOpen then 1 else 0),
     .length s.floors.windowCount, .mark s.pins.commissionEn,
     .code (match s.floors.programmer with | .idle => 0 | .floor _ _ => 1 | .lock => 2)] ++
    withPresence [maybe site 0 .site]
  else
    [.code e.state.code, .mark (decide (site = some n))] ++ withPresence
      [maybe stored 0 .image, maybe ((s.effectiveFloor n).map (·.image)) 0 .image,
       surely (.mark (decide (stored.map Image.values ≠ s.effectiveFloor n)))]

/-- STATUS (R190): the start-up state, the clocks and the Link Controller, and while RUNNING the stores, the slots, the groups,
the sites (all 384 records: assumption log 18) and the lines by their states. -/
def statusFields (s : State) : List Field :=
  let run := decide (s.startUp.phase = .running)
  let count (f : Nat → Field) (n : Nat) : Field := f (if run then n else 0)
  let l := s.link
  let tables : List Field :=
    [.mark (run && s.store.operation.isSome), .mark (run && s.floors.windowOpen), .mark (run && s.floors.lockInEffect)] ++
    [SlotState.free, .filling, .checking, .posted, .retiring].map (fun st =>
      count .byte ((List.range 96).filter (fun n => decide ((s.slot n).state = st))).length) ++
    [count .byte s.library.checkQueue.length, count .byte (s.resolver.forces.filter (fun e => e.2.isSome)).length,
     count .byte (eventsHeld s)] ++
    [GroupState.empty, .free, .running, .pending].map (fun st =>
      count .byte ((upTo 64).filter (fun g => decide ((s.group g).state = st))).length) ++
    [TrackerState.offline, .free, .acquiring, .seeking, .inStep].map (fun st =>
      count .total ((upTo 384).filter (fun n => decide ((s.tracker n).state = st))).length) ++
    [count .total (heldSites s).length] ++
    [LineState.disabled, .idle, .active, .degraded, .down].map (fun st =>
      count .byte ((List.range 8).filter (fun k => decide ((s.line k).state = st))).length)
  [.code (if run then 1 else 0), .code s.retained.cause.code, .count s.time.count, .mark s.time.valid, .day s.time.day,
   .minute (s.time.timeOfDay / 600), .code s.time.discipline.code, .byte l.queue.length, .byte l.refusals.length,
   .byte l.notices.length, .mark l.lostMark, .total l.lostCount, .total l.rejectedTotal, .total l.refusalTotal,
   .mark (run && s.flags.attn)] ++
  withPresence (tables.map (fun f => (some run, [f])))

/-! ### The watched site (R125, R126) -/

/-- What WATCH says of a zero with a verdict, in the state after its judgement (Table 6-3, in the order of Table 12-9): the
zero as it was handed over, the computation made and the order issued at it, both lengths wherever they exist (assumption
log 47), and the record and hold mark after the judgement. Δ is one byte wide (assumption log 17), and the reason of an order
that is not NOMINAL is none (assumption log 40). -/
def watchFields (z : HandedZero) (verdict : Nat) (x : State) : List Field :=
  let order := z.issued.map (·.1)
  let computation := z.issued.map (·.2)
  let needs := computation.bind (·.needs)
  let limits := computation.bind (·.limits)
  let record := x.monitorOf z.site
  [.site z.site, .byte (x.groupOf z.site), .count z.zero] ++ withPresence
    [maybe z.delta 0 .byte, maybe z.lagObserved 0 .length, surely (.code z.stateAfter.code),
     maybe (needs.map (·.lag)) 0 .length, maybe (needs.map (·.shortenNeed)) 0 .length,
     maybe (needs.map (·.lengthenNeed)) 0 .length, maybe (limits.map (·.smax)) 0 .length,
     maybe (limits.map (·.lmax)) 0 .length, maybe (limits.map (·.shortenCycles)) (some 0) cycleCountField,
     maybe (limits.map (·.lengthenCycles)) (some 0) cycleCountField,
     maybe (order.map (fun o => match o.kind with | .shortened => 1 | .lengthened => 2 | _ => 0)) 0 .code,
     maybe (order.map (·.correction)) 0 .length, maybe (order.map (·.sequence.toNat)) 0 .byte,
     maybe (order.map (·.kind.code)) 0 .code, maybe (order.bind (·.length)) 0 .length,
     maybe (computation.map (·.reason.code)) 0 .code, maybe (z.before.map (fun b => sdiff z.zero b)) 0 .signed,
     maybe (z.ran.bind (·.length)) 0 .length, surely (.code verdict), surely (.byte record.deviations),
     maybe (record.sign.map (fun v => match v with | .long => 0 | .short => 1)) 0 .code, surely (.mark (x.held z.site))]

/-- `y` is `x` after the judgement of a zero handed over: with a WATCH notice raised where the zero's site was watched at its
hand-over and still is (assumption log 25), and otherwise `x` itself. -/
def WatchRaised (z : HandedZero) (verdict : Nat) (x y : State) : Prop :=
  (z.watched = true ∧ x.monitor.watched = z.site ∧ y = raise .watch (watchFields z verdict x) x)
  ∨ (¬ (z.watched = true ∧ x.monitor.watched = z.site) ∧ y = x)

/-! ### Bodies of requests (Table 12-4) -/

/-- Each request kind, the length of its body without the items of its list, the place of their count, and the size of an
item; a request without a list has items of size 0. -/
def bodyLengths : List (Byte × Nat × Nat × Nat) :=
  [(0x01, 0, 0, 0), (0x02, 0, 0, 0), (0x03, 0, 0, 0), (0x10, 6, 0, 0), (0x11, 0, 0, 0), (0x18, 5, 0, 0), (0x19, 2, 0, 0),
   (0x1A, 2, 0, 0), (0x20, 0, 0, 0), (0x21, 11, 0, 0), (0x22, 3, 2, 22), (0x23, 2, 0, 0), (0x24, 1, 0, 0), (0x25, 3, 0, 0),
   (0x26, 3, 0, 0)] ++
  [(0x30, 2, 1, 4), (0x31, 1, 0, 0), (0x32, 8, 0, 0), (0x33, 1, 0, 0), (0x34, 16, 15, 1), (0x35, 2, 0, 0), (0x36, 1, 0, 0),
   (0x37, 4, 3, 1), (0x38, 1, 0, 1), (0x39, 0, 0, 0), (0x40, 1, 0, 0), (0x41, 2, 0, 0), (0x42, 2, 0, 0), (0x43, 3, 0, 0),
   (0x44, 2, 0, 0)] ++
  [(0x48, 8, 0, 0), (0x49, 2, 0, 0), (0x50, 3, 0, 0), (0x51, 2, 0, 0), (0x52, 3, 0, 0), (0x58, 0, 0, 0), (0x59, 8, 7, 2),
   (0x5A, 0, 0, 0), (0x5B, 2, 0, 0)]

/-- The body of a request of a known kind is of no allowed length (R182 case 2, Table 12-4). -/
def BadLength (kind : Byte) (body : List Byte) : Prop :=
  ∃ fixed place item, (kind, fixed, place, item) ∈ bodyLengths ∧
    (body.length < fixed ∨ body.length ≠ fixed + (body.getD place 0).toNat * item)

/-! ### What the store sections hold (12.8) -/

/-- A plan slot keeps the ranges of Tables 2-1 and 2-2, and holds an entry at every index below its count. -/
def PlanInRange (v : Slot) : Prop :=
  ∃ h, v.header = some h ∧ 1 ≤ h.plan ∧ h.plan ≤ 250 ∧ 1 ≤ h.group ∧ h.group ≤ 64 ∧ 300 ≤ h.cycle ∧ h.cycle ≤ 2550
    ∧ h.shorten ≤ 30 ∧ h.lengthen ≤ 50 ∧ 1 ≤ h.window ∧ h.window ≤ 100 ∧ h.cohortKey ≤ 255 ∧ 1 ≤ h.count
    ∧ h.count ≤ 48 ∧ v.recordEntries.length = h.count
    ∧ ∀ e ∈ v.recordEntries, 1 ≤ e.site ∧ e.site ≤ 384 ∧ e.offset ≤ 2549 ∧ 1 ≤ e.splits.length ∧ e.splits.length ≤ 8
      ∧ ∀ x ∈ e.splits, 1 ≤ x ∧ x ≤ 2550

/-- A calendar entry keeps the ranges of Table 3-1 (R46). -/
def EventInRange (id : Nat) (e : EventEntry) : Prop :=
  1 ≤ id ∧ id ≤ 128 ∧ e.firstDay ≤ e.lastDay ∧ e.lastDay ≤ 65535 ∧ e.weekdays ≠ 0 ∧ e.weekdays.getLsbD 7 = false
    ∧ e.groups ≠ [] ∧ e.groups.Nodup ∧ (∀ g ∈ e.groups, 1 ≤ g ∧ g ≤ 64)
    ∧ (∀ n a b, e.action = .plan n a b → n ≤ 250 ∧ a < b ∧ b ≤ 1440)
    ∧ (∀ p, e.action = .program p → 1 ≤ p ∧ p ≤ 64)
    ∧ 1 ≤ e.priority ∧ e.priority ≤ 15 ∧ 1 ≤ e.sequence ∧ e.sequence ≤ 4294967295

/-- The timetables keep the ranges of R40, R43 and Table 3-1. -/
def TimetablesInRange (s : State) : Prop :=
  (∀ p, 1 ≤ p → p ≤ 64 → (s.program p).length ≤ 24 ∧ ((s.program p).map (·.start)).Pairwise (· < ·)
    ∧ ∀ e ∈ s.program p, e.start ≤ 1439 ∧ e.plan ≤ 250) ∧
  (∀ g, 1 ≤ g → g ≤ 64 → (s.week g).length = 7 ∧ ∀ p ∈ s.week g, p ≤ 64) ∧
  Table.wf none s.resolver.events = true ∧ ∀ id e, s.event id = some e → EventInRange id e

end Sys2Proof.Machine
end

