-- ==== Sys2Proof/Certificates/Slice0/Obligations.lean ====
section
/-! DEFINITION. The statements for the provers. Each docstring names the rules it formalises, and the assumption-log entries
where it rests on the model's own choices. Unless a clause says otherwise, an equation gives the whole next state, so that
everything it does not name is unchanged. -/

open Sys2Proof Sys2Proof.Machine

/-! ### Steps, resets and the Time Base -/

/-- A step runs the command at the front of the queue on the state with the queue's rest. That an empty queue idles is the
model's choice (assumption log 1). -/
def Obligations.StepRunsTheFrontCommand : Prop :=
  (∀ (c : Instr) (rest : List Instr) (s : State),
    step { s with pending := c :: rest } = exec c { s with pending := rest }) ∧
  (∀ s : State, s.pending = [] → step s = .next s)

/-- POWER_ON, RESET_PIN_ASSERT, and FRAME_TRANSMIT_END of the OK reply to RESTART (R1, R193, R194, R15, R191, R192): at
POWER_ON everything is at its reset value but the one-time storage, the store sections and the queue of commands; at the
others the Time Base, the resume records and the hold marks stand too. The cause is the reset's own, and the straps are read
at each reset (R176). A floor or lock programming under way ends where it stands, without notice (R135, R138): of the entry
only bits of the image carried have landed, and the commit mark only where the entry then equals it; how far it had come,
and that the failure mark may have taken, comes with the command (assumption log 12). Where RESET is held already
RESET_PIN_ASSERT changes nothing, and RESET_RELEASE (R176, R192, R198) reads the straps and leaves the part LOADING; where
RESET is not held there is nothing to release (assumption log 4). With RESET asserted the part stays in reset at POWER_ON, and
a RESTART-REQUEST reset is released at once (assumption log 10). The level of COMMISSION_EN comes with FRAME_TRANSMIT_END
(assumption log 11). -/
def Obligations.ResetsKeepTheRetainedDomain : Prop :=
  (∀ (pins : PinLevels) (cut : ProgramCut) (s : State), ∃ entries lockMark, CutLeaves s cut entries lockMark ∧
    exec (.powerOn pins cut) s = .next
      { State.reset with
        floors := { FloorStore.delivered with entries := entries, lockMark := lockMark }
        store := { s.store with operation := none }
        link := LinkController.reset (2 * markCode pins.rate1 + markCode pins.rate0)
        startUp := { phase := if pins.reset then .held else .loading, rebuilt := none }
        pins := { rate1 := pins.rate1, rate0 := pins.rate0, commissionEn := pins.commissionEn }
        pending := s.pending }) ∧
  (∀ (cut : ProgramCut) (s : State),
      (s.startUp.phase = .held → exec (.resetPinAssert cut) s = .next s) ∧
      (s.startUp.phase ≠ .held → ∃ entries lockMark, CutLeaves s cut entries lockMark ∧
        exec (.resetPinAssert cut) s = .next
          { State.reset with
            time := s.time
            retained := { s.retained with cause := .resetPin }
            floors := { FloorStore.delivered with entries := entries, lockMark := lockMark }
            store := { s.store with operation := none }
            link := LinkController.reset (2 * markCode s.pins.rate1 + markCode s.pins.rate0)
            startUp := { phase := .held, rebuilt := none }
            pins := s.pins
            pending := s.pending })) ∧
  (∀ (ending : FrameEnd) (s : State) (tag : Byte) (fields : List Field),
      s.link.inFlight = some (.reply { tag := tag, kind := Kind.restart, status := .ok, fields := fields }) →
      ∃ entries lockMark, CutLeaves (look ending.seen s) ending.cut entries lockMark ∧
      exec (.frameTransmitEnd ending) s = .next
        { State.reset with
          time := s.time
          retained := { s.retained with cause := .restartRequest }
          floors := { FloorStore.delivered with entries := entries, lockMark := lockMark }
          store := { s.store with operation := none }
          link := LinkController.reset (2 * markCode ending.rate1 + markCode ending.rate0)
          startUp := { phase := .loading, rebuilt := none }
          pins := { rate1 := ending.rate1, rate0 := ending.rate0, commissionEn := ending.seen.key }
          pending := s.pending }) ∧
  (∀ (rate1 rate0 : Bool) (s : State),
      (s.startUp.phase = .held →
        exec (.resetRelease rate1 rate0) s = .next
          { s with
            link := LinkController.reset (2 * markCode rate1 + markCode rate0)
            startUp := { phase := .loading, rebuilt := none }
            pins := { s.pins with rate1 := rate1, rate0 := rate0 } }) ∧
      (s.startUp.phase ≠ .held → exec (.resetRelease rate1 rate0) s = .next (pump s)))

/-- PPS_EDGE where the capture counter does not pass 30,000,000 on the way (R2, R3, R4): the first edge makes no capture, an
accepted capture becomes N and locks, a rejected one changes neither N nor the discipline state. PPS_ABSENCE (R4, R1): from
LOCKED the part enters HOLDOVER and raises PPS-LOST, unless RESET is held; in another state, and before a first edge, the
discipline state stands. The counts since the tick began are the model's own (assumption log 7), as is that PPS_ABSENCE does
nothing past 30,000,000 counts (assumption log 4). -/
def Obligations.PpsEdgeAndAbsence : Prop :=
  (∀ (counts : Nat) (s : State), absenceWithin s.time counts = false →
      (s.time.edgeSeen = false →
        exec (.ppsEdge counts) s = .next (pump { s with time := { s.time with
          edgeSeen := true, captureCounter := 0, tickSpent := s.time.tickSpent + counts } })) ∧
      (∀ c, c = min 4294967295 (s.time.captureCounter + counts) → s.time.edgeSeen = true →
        (9998000 ≤ c → c ≤ 10002000 →
          exec (.ppsEdge counts) s = .next (pump { s with time := { s.time with
            captureCounter := 0, lastCapture := c, verdict := .accepted, acceptedN := c, discipline := .locked,
            tickSpent := s.time.tickSpent + counts } })) ∧
        (c < 9998000 ∨ 10002000 < c →
          exec (.ppsEdge counts) s = .next (pump { s with time := { s.time with
            captureCounter := 0, lastCapture := c, verdict := .rejected,
            tickSpent := s.time.tickSpent + counts } })))) ∧
  (∀ s : State,
      (∀ v : TimeBase, s.time.edgeSeen = true → s.time.captureCounter < 30000000 →
        v = { s.time with captureCounter := 30000000
                          tickSpent := s.time.tickSpent + (30000000 - s.time.captureCounter) } →
        (s.time.discipline = .locked → s.startUp.phase ≠ .held →
          exec .ppsAbsence s = .next (pump (raise .ppsLost [.count s.time.count, .large s.time.acceptedN]
            { s with time := { v with discipline := .holdover } }))) ∧
        (s.time.discipline = .locked → s.startUp.phase = .held →
          exec .ppsAbsence s = .next { s with time := { v with discipline := .holdover } }) ∧
        (s.time.discipline ≠ .locked → exec .ppsAbsence s = .next (pump { s with time := v }))) ∧
      (s.time.edgeSeen = false ∨ 30000000 ≤ s.time.captureCounter → exec .ppsAbsence s = .next (pump s)))

/-- TICK where nothing is left to take at the present count and no PPS absence falls within the tick (R5 to R8, R10, R12,
R139, R140): count, civil clock, slew, minute boundary, tick phase and reload, and the commissioning window: OPEN with count
2 or more it counts one down, OPEN with count 1 it becomes CLOSED with count 0, and CLOSED it stays as it is. SLEW_STEP
(R12) is the tick at which the slew phase reaches 100. The ten ticks of a tick second last exactly the N of its reload (R5,
R6). That a TICK first takes what is left to take, and that SLEW_STEP is the whole tick, are the model's choices (assumption
log 5, 8); so is that SLEW_STEP does nothing at any other tick (assumption log 4). The clauses on the capture counter and on
the counts spent of the tick are the model's own too (assumption log 7). -/
def Obligations.TickAdvancesTheClocksAndSlews : Prop :=
  (∀ (s : State) (ds : Nat) (remainder : Int), NothingDue s → NoAbsenceInTick s →
      CivilAdvance s.time ds remainder →
      ∃ (v : TimeBase) (w : FloorStore),
        exec .tick s = .next (pump
          (if s.time.valid = true ∧ v.timeOfDay / 600 ≠ s.time.timeOfDay / 600 then
            askPass (.signal v.day (v.timeOfDay / 600) v.count) { s with time := v, floors := w }
          else { s with time := v, floors := w })) ∧
        (s.floors.windowOpen = true → 2 ≤ s.floors.windowCount →
          w = { s.floors with windowCount := s.floors.windowCount - 1 }) ∧
        (s.floors.windowOpen = true → s.floors.windowCount ≤ 1 →
          w = { s.floors with windowOpen := false, windowCount := 0 }) ∧
        (s.floors.windowOpen = false → w = s.floors) ∧
        v.count = s.time.count + 1 ∧
        (s.time.timeOfDay + ds < 864000 → v.day = s.time.day ∧ v.timeOfDay = s.time.timeOfDay + ds) ∧
        (864000 ≤ s.time.timeOfDay + ds →
          v.day = (s.time.day + 1) % 65536 ∧ v.timeOfDay = s.time.timeOfDay + ds - 864000) ∧
        v.slewRemainder = remainder ∧
        v.slewPhase = (if s.time.slewPhase = 99 then 0 else s.time.slewPhase + 1) ∧
        v.tickPhase = (if s.time.tickPhase = 9 then 0 else s.time.tickPhase + 1) ∧
        v.reloadR = (if s.time.tickPhase = 9 then s.time.acceptedN / 10 else s.time.reloadR) ∧
        v.reloadRem = (if s.time.tickPhase = 9 then s.time.acceptedN % 10 else s.time.reloadRem) ∧
        v.captureCounter
          = min 4294967295 (s.time.captureCounter + (tickLength s.time - s.time.tickSpent)) ∧
        v.tickSpent = 0 ∧ v.edgeSeen = s.time.edgeSeen ∧ v.lastCapture = s.time.lastCapture ∧
        v.verdict = s.time.verdict ∧ v.acceptedN = s.time.acceptedN ∧ v.discipline = s.time.discipline ∧
        v.valid = s.time.valid) ∧
  (∀ s : State,
      (s.time.slewPhase = 99 → exec .slewStep s = exec .tick s) ∧
      (s.time.slewPhase ≠ 99 → exec .slewStep s = .next (pump s))) ∧
  (∀ v : TimeBase, v.reloadR = v.acceptedN / 10 → v.reloadRem = v.acceptedN % 10 →
      sumOf ((List.range 10).map (fun k => tickLength { v with tickPhase := k })) = v.acceptedN)

/-- R7: no command but a tick and POWER_ON changes the coordination count, and POWER_ON sets it to 0. That SLEW_STEP is a whole
tick at slew phase 99, and nothing at any other, is the model's choice (assumption log 8, 4). -/
def Obligations.OnlyTicksMoveTheCount : Prop :=
  ∀ (c : Instr) (s t : State), exec c s = .next t →
    (c ≠ .tick → c ≠ .slewStep → (∀ pins cut, c ≠ .powerOn pins cut) → t.time.count = s.time.count) ∧
    (∀ pins cut, c = .powerOn pins cut → t.time.count = 0) ∧
    (c = .tick → t.time.count = s.time.count + 1) ∧
    (c = .slewStep → t.time.count = s.time.count + (if s.time.slewPhase = 99 then 1 else 0))

/-- SET-TIME (R11, R12, R13): refused out of range; a slew when the clock is valid and the difference lies within 20 ds; a step
otherwise, which raises TIME-STEPPED and signals the civil step. -/
def Obligations.SetTimeSlewsOrSteps : Prop :=
  ∀ (tag : Byte) (day timeOfDay : Nat) (s : State), Ready s →
    (65535 < day ∨ 863999 < timeOfDay →
      exec (.setTime tag day timeOfDay) s = answered Kind.setTime tag .outOfRange [] s) ∧
    (∀ (d k : Int), day ≤ 65535 → timeOfDay ≤ 863999 →
      (day : Int) * 864000 + timeOfDay - ((s.time.day : Int) * 864000 + s.time.timeOfDay) = d + k * 56623104000 →
      -28311552000 ≤ d → d ≤ 28311551999 →
      (s.time.valid = true ∧ -20 ≤ d ∧ d ≤ 20 →
        exec (.setTime tag day timeOfDay) s = answered Kind.setTime tag .ok
          [.code 0, .day s.time.day, .timeOfDay s.time.timeOfDay, .mark s.time.valid]
          { s with time := { s.time with slewRemainder := d, slewPhase := 0 } }) ∧
      (¬ (s.time.valid = true ∧ -20 ≤ d ∧ d ≤ 20) →
        exec (.setTime tag day timeOfDay) s = answered Kind.setTime tag .ok
          [.code 1, .day s.time.day, .timeOfDay s.time.timeOfDay, .mark s.time.valid]
          (askPass (.signal day (timeOfDay / 600) s.time.count)
            (raise .timeStepped
              [.day s.time.day, .timeOfDay s.time.timeOfDay, .mark s.time.valid, .day day, .timeOfDay timeOfDay,
               .count s.time.count]
              { s with time := { s.time with day := day, timeOfDay := timeOfDay, valid := true,
                                             slewRemainder := 0, slewPhase := 0 } }))))

/-- GET-TIME (R14, with the minute and weekday of R9), READ-DAY-PROGRAM (R42) and READ-EVENT (R48): with the next mark set, the
entry under the lowest occupied id at or above the one given. That an unknown next mark is answered OUT-OF-RANGE is the
model's choice (assumption log 28), as are the widths of the slew remainder and the weekday in the reply to GET-TIME
(assumption log 17). -/
def Obligations.ReadsReportTimeProgramsAndEvents : Prop :=
  (∀ (tag : Byte) (s : State), Ready s →
      exec (.getTime tag) s = answered Kind.getTime tag .ok
        [.count s.time.count, .day s.time.day, .timeOfDay s.time.timeOfDay, .minute (s.time.timeOfDay / 600),
         .byte ((s.time.day + 5) % 7), .mark s.time.valid, .signed s.time.slewRemainder,
         .code s.time.discipline.code, .large s.time.acceptedN, .large s.time.lastCapture,
         .code s.time.verdict.code] s) ∧
  (∀ (tag : Byte) (p : Nat) (s : State), Ready s →
      (p = 0 ∨ 64 < p → exec (.readDayProgram tag p) s = answered Kind.readDayProgram tag .outOfRange [] s) ∧
      (1 ≤ p → p ≤ 64 →
        exec (.readDayProgram tag p) s = answered Kind.readDayProgram tag .ok
          (.byte p :: .byte (s.program p).length ::
            (s.program p).flatMap (fun e => [.minute e.start, .byte e.plan, .mark e.notify])) s)) ∧
  (∀ (tag : Byte) (id next : Nat) (s : State), Ready s →
      ∀ tail : List Field, tail = [.byte (eventsHeld s), .large s.resolver.sequence] →
      (id = 0 ∨ 128 < id ∨ 1 < next →
        exec (.readEvent tag id next) s = answered Kind.readEvent tag .outOfRange tail s) ∧
      (1 ≤ id → id ≤ 128 →
        (∀ e, s.event id = some e →
          exec (.readEvent tag id 0) s = answered Kind.readEvent tag .ok (eventFields id e ++ tail) s) ∧
        (s.event id = none →
          exec (.readEvent tag id 0) s = answered Kind.readEvent tag .notFound tail s) ∧
        (∀ k e, id ≤ k → k ≤ 128 → s.event k = some e → (∀ j, id ≤ j → j < k → s.event j = none) →
          exec (.readEvent tag id 1) s = answered Kind.readEvent tag .ok (eventFields k e ++ tail) s) ∧
        ((∀ j, id ≤ j → j ≤ 128 → s.event j = none) →
          exec (.readEvent tag id 1) s = answered Kind.readEvent tag .notFound tail s)))

/-- START_UP_TABLES_REBUILT (R199, R136): once after each reset, the tables are rebuilt; the effective floor table holds the
values of each COMMITTED entry that passes the value check and nothing else, the lock takes effect, a roster section that
is LOADED gives the roster and any other gives none, and the free list holds the FREE slots in ascending order. -/
def Obligations.StartUpRebuildsTheTables : Prop :=
  ∀ s : State, s.startUp.phase = .loading → s.startUp.rebuilt = none →
    Table.wf FloorEntry.blank s.floors.entries = true → s.roster = [] →
    ∃ t : State, exec .startUpTablesRebuilt s = .next (pump t) ∧
      t.startUp.phase = .loading ∧ t.startUp.rebuilt.isSome = true ∧
      (∀ n, t.effectiveFloor n =
        (if (s.floorEntry n).state = .committed ∧ floorFault (Image.values (s.floorEntry n).image) = none
         then some (Image.values (s.floorEntry n).image) else none)) ∧
      t.floors.lockInEffect = s.floors.lockMark ∧
      (∀ es, loadSection s.store.roster parseRoster = (.loaded, some es) →
        ∀ n e, t.rosterEntry n = some e ↔ (n, e) ∈ es) ∧
      ((loadSection s.store.roster parseRoster).1 ≠ .loaded → t.roster = []) ∧
      t.library.freeList = slotsInState t .free ∧
      t.floors = { s.floors with effective := t.floors.effective, lockInEffect := s.floors.lockMark } ∧
      t.time = s.time ∧ t.retained = s.retained ∧ t.store = s.store ∧ t.groups = s.groups ∧
      t.trackers = s.trackers ∧ t.links = s.links ∧ t.handed = s.handed ∧ t.pins = s.pins ∧
      t.pending = s.pending ∧ t.resolver.forces = s.resolver.forces ∧
      t.resolver.governing = s.resolver.governing ∧ t.resolver.owed = s.resolver.owed ∧
      t.link.queue = s.link.queue ∧ t.link.replySlot = s.link.replySlot

/-- START_UP_TABLES_REBUILT, the other three sections (R199, R31, R39, R45, R62). LOADED settings replace the line settings,
the monitor settings and the flag mask. Each LOADED plan stands in its slot with its check code computed afresh, POSTED where
it passes the plan check against the roster and the floors just rebuilt and FILLING, without check code, where it fails;
PLAN-CHECKED is raised for each slot returned, in ascending slot order, with the failing check and its entry index. LOADED
timetables replace the programs, the week tables and the calendar, whose entries are numbered afresh from 1 in the order of
their stored write sequence numbers; of equal ones the lower id comes first (the model's choice, assumption log 43). A section
that is not LOADED leaves what the reset left. STARTED is to carry the result and the item count of each section (R201; those
of the settings and the timetables: assumption log 21), 0 for one that is not LOADED, the slots loaded POSTED and, of those,
the ones returned. -/
def Obligations.StartUpLoadsTheStoredSections : Prop :=
  ∀ s : State, s.startUp.phase = .loading → s.startUp.rebuilt = none → s.library = PlanLibrary.reset →
    ∃ (t : State) (report : LoadReport), exec .startUpTablesRebuilt s = .next (pump t) ∧
      t.startUp.rebuilt = some report ∧
      report.sections.map (·.1) = [(loadSection s.store.roster parseRoster).1,
        (loadSection s.store.settings parseSettings).1, (loadSection s.store.plans parsePlans).1,
        (loadSection s.store.timetables parseTimetables).1] ∧
      report.sections.map (·.2) = [
        match loadSection s.store.roster parseRoster with | (_, some es) => es.length | (_, none) => 0,
        match loadSection s.store.settings parseSettings with | (_, some _) => 8 | (_, none) => 0,
        match loadSection s.store.plans parsePlans with | (_, some ps) => ps.length | (_, none) => 0,
        match loadSection s.store.timetables parseTimetables with
          | (_, some v) => sumOf (v.programs.map (·.length)) + 64 + v.events.length | (_, none) => 0] ∧
      (∀ v, loadSection s.store.settings parseSettings = (.loaded, some v) →
        (∀ l, l < 8 → (t.line l).settings = v.lines.getD l LineSettings.default) ∧
        t.monitor = { s.monitor with tolerance := v.tolerance, limitCode := v.limitCode } ∧
        t.flags = { s.flags with mask := v.mask }) ∧
      ((loadSection s.store.settings parseSettings).1 ≠ .loaded →
        (∀ l, (t.line l).settings = (s.line l).settings) ∧ t.monitor = s.monitor ∧ t.flags = s.flags) ∧
      (∀ ps, loadSection s.store.plans parsePlans = (.loaded, some ps) →
        report.posted = ps.length ∧ report.returned + (slotsInState t .posted).length = ps.length ∧
        Notices s t ((List.range 96).flatMap (fun n => match ps.find? (fun p => decide (p.slot = n)), planCheck t n false with
          | some p, .failed check index => [(.planChecked,
              [.byte n, .byte p.header.plan, .code check, .byte index] ++ withPresence
                [maybe none 0 .checkCode, sentinel [.byte 255], maybe none 0 .code])]
          | _, _ => [])) ∧
        (∀ n, (∀ p ∈ ps, p.slot ≠ n) → t.slot n = Slot.empty) ∧
        (∀ p ∈ ps, ∃ v : Slot, v.header = some (storedHeader p.header) ∧
          (∀ i, v.entryAt i = (p.entries[i]?).map storedEntry) ∧ v.state = .posted ∧ v.refs = 0 ∧
          v.supersede = false ∧ v.checkCode = some (crc16 v.recordBytes) ∧
          (planCheck t p.slot false = .passed none → t.slot p.slot = v) ∧
          (planCheck t p.slot false ≠ .passed none →
            t.slot p.slot = { v with state := .filling, checkCode := none }))) ∧
      ((loadSection s.store.plans parsePlans).1 ≠ .loaded → (∀ n, t.slot n = Slot.empty) ∧ t.link = s.link ∧
        report.posted = 0 ∧ report.returned = 0) ∧
      (∀ v, loadSection s.store.timetables parseTimetables = (.loaded, some v) →
        (∀ p, 1 ≤ p → p ≤ 64 → t.program p = (v.programs.getD (p - 1) []).map storedProgramEntry) ∧
        (∀ g, 1 ≤ g → g ≤ 64 → t.week g = v.weeks.getD (g - 1) (List.replicate 7 0)) ∧
        (∀ e ∈ v.events, t.event e.event.id = some (storedEvent e.event (1 + (v.events.filter (fun x =>
          decide (x.sequence < e.sequence ∨ (x.sequence = e.sequence ∧ x.event.id < e.event.id)))).length))) ∧
        (∀ id, (∀ e ∈ v.events, e.event.id ≠ id) → t.event id = none) ∧
        t.resolver.sequence = v.events.length + 1) ∧
      ((loadSection s.store.timetables parseTimetables).1 ≠ .loaded → t.resolver = s.resolver)

/-- STARTUP_END after the tables have been rebuilt (R200, R201, R34): each group is EMPTY, RUNNING on the POSTED slot that its
resume record matches, with a reference taken on it, or FREE; hold marks stand for roster sites only; the part is RUNNING,
each enabled line with roster entries begins a round, of all its sites in ascending address order where its round counter
is 0 (R153), STARTED is raised, and a resolver pass is asked for. Before START_UP_TABLES_REBUILT the command rebuilds the
tables too; at any other time it does nothing (assumption log 4). -/
def Obligations.StartUpResumesGroups : Prop :=
  ∀ s : State, Table.wf Slot.empty s.library.slots = true →
    (∀ report, s.startUp.phase = .loading → s.startUp.rebuilt = some report →
      ∃ t : State, exec .startupEnd s = .next (pump t) ∧
        t.startUp = { s.startUp with phase := .running } ∧
        (∀ g, 1 ≤ g → g ≤ 64 →
          (s.membersOf g = [] → t.group g = GroupRecord.empty ∧ t.resumeOf g = ResumeRecord.free) ∧
          (∀ n, s.membersOf g ≠ [] → (s.resumeOf g).plan ≠ 0 → postedSlot s (s.resumeOf g).plan = some n →
            (s.slot n).checkCode = (s.resumeOf g).checkCode →
            t.resumeOf g = s.resumeOf g ∧
            t.group g = { GroupRecord.empty with
              members := (s.membersOf g).length
              reference := some { slot := n, plan := (s.resumeOf g).plan, epoch := (s.resumeOf g).epoch,
                                  cycle := (s.resumeOf g).cycle }
              lastSwitch := some (s.resumeOf g).epoch }) ∧
          (s.membersOf g ≠ [] → (∀ n, (s.resumeOf g).plan ≠ 0 → postedSlot s (s.resumeOf g).plan = some n →
              (s.slot n).checkCode ≠ (s.resumeOf g).checkCode) →
            t.group g = { GroupRecord.empty with members := (s.membersOf g).length } ∧
            t.resumeOf g = ResumeRecord.free)) ∧
        (∀ n, t.slot n = { s.slot n with refs := (s.slot n).refs + ((upTo 64).filter (fun g =>
          decide ((t.group g).reference.map (·.slot) = some n))).length }) ∧
        t.library = { s.library with slots := t.library.slots } ∧
        (∀ n, t.held n = (s.held n && (s.rosterEntry n).isSome)) ∧
        (∀ l, t.line l = { s.line l with round := (t.line l).round }) ∧
        (∀ l, l < 8 →
          ((s.line l).settings.enabled = false ∨ s.sitesOn l = [] → (t.line l).round = none) ∧
          ((s.line l).settings.enabled = true → s.sitesOn l ≠ [] → (s.line l).roundCounter = 0 →
            ∃ list : List Nat, (t.line l).round = some { remaining := list, formedEmpty := false } ∧
              list.Perm (s.sitesOn l) ∧ (list.map (addressOf s)).Pairwise (· ≤ ·))) ∧
        t.link = (raise .started
          ([.code s.retained.cause.code] ++ report.sections.flatMap (fun v => [.code v.1.code, .total v.2])
            ++ entryCounts s ++ [.total report.passedOver, .mark s.floors.lockInEffect, .byte report.posted,
              .byte report.returned, .byte (groupsIn t .free).length, .byte (groupsIn t .empty).length,
              .total (rosterEntries s).length, .total (heldSites t).length, .mark s.time.valid,
              .code s.time.discipline.code]
            ++ counted (groupsIn t .running) (resumedFields t)) s).link ∧
        t.time = s.time ∧ t.floors = s.floors ∧ t.store = s.store ∧ t.roster = s.roster ∧ t.links = s.links ∧
        t.trackers = s.trackers ∧ t.monitor = s.monitor ∧ t.flags = s.flags ∧ t.pins = s.pins ∧
        t.pending = s.pending ∧ t.retained.cause = s.retained.cause ∧
        (s.time.valid = true → t.resolver = { s.resolver with owed := s.resolver.owed ++ [.asked] }) ∧
        (s.time.valid = false → t.resolver = s.resolver)) ∧
    (s.startUp.phase = .loading → s.startUp.rebuilt = none →
      exec .startUpTablesRebuilt s = .next (pump (rebuildTables s)) ∧
      exec .startupEnd s = exec .startupEnd (rebuildTables s)) ∧
    (s.startUp.phase ≠ .loading → exec .startupEnd s = .next (pump s))

/-! ### The Plan Library -/

/-- TAKE-SLOT (R20), POST-PLAN (R25) and WITHDRAW-PLAN (R32, R33): the head of the free list becomes FILLING; a FILLING slot
joins the check queue; a slot that becomes FREE is emptied and joins the tail of the free list (R18, R19). -/
def Obligations.SlotsAreTakenPostedAndWithdrawn : Prop :=
  (∀ (tag : Byte) (s : State), Ready s →
      (∀ n rest, s.library.freeList = n :: rest →
        exec (.takeSlot tag) s = answered Kind.takeSlot tag .ok [.byte n, .byte rest.length]
          { s with library := { s.library with
              freeList := rest, slots := Table.set Slot.empty s.library.slots n { Slot.empty with state := .filling } } }) ∧
      (s.library.freeList = [] →
        exec (.takeSlot tag) s = answered Kind.takeSlot tag .noSpace [.byte 255, .byte 0] s)) ∧
  (∀ (tag : Byte) (n mark : Nat) (s : State), Ready s →
      (96 ≤ n ∨ 2 ≤ mark → exec (.postPlan tag n mark) s = answered Kind.postPlan tag .outOfRange [] s) ∧
      (n ≤ 95 → mark ≤ 1 →
        (s.storing = true → exec (.postPlan tag n mark) s = answered Kind.postPlan tag .busy [] s) ∧
        (s.storing = false →
          ((s.slot n).state = .filling →
            exec (.postPlan tag n mark) s = answered Kind.postPlan tag .ok [.byte s.library.checkQueue.length]
              { s with library := { s.library with
                  slots := Table.set Slot.empty s.library.slots n
                    { s.slot n with state := .checking, supersede := decide (mark = 1) }
                  checkQueue := s.library.checkQueue ++ [n] } }) ∧
          ((s.slot n).state = .checking →
            exec (.postPlan tag n mark) s = answered Kind.postPlan tag .busy [] s) ∧
          ((s.slot n).state = .free ∨ (s.slot n).state = .posted ∨ (s.slot n).state = .retiring →
            exec (.postPlan tag n mark) s = answered Kind.postPlan tag .wrongState [] s)))) ∧
  (∀ (tag : Byte) (n : Nat) (s : State), Ready s →
    (96 ≤ n → exec (.withdrawPlan tag n) s = answered Kind.withdrawPlan tag .outOfRange [] s) ∧
    (n ≤ 95 →
      ((s.slot n).state = .free →
        exec (.withdrawPlan tag n) s = answered Kind.withdrawPlan tag .wrongState [.code 0] s) ∧
      ((s.slot n).state = .filling →
        exec (.withdrawPlan tag n) s = answered Kind.withdrawPlan tag .ok [.code 0]
          { s with library := { s.library with
              slots := Table.set Slot.empty s.library.slots n Slot.empty
              freeList := s.library.freeList ++ [n] } }) ∧
      ((s.slot n).state = .checking →
        exec (.withdrawPlan tag n) s = answered Kind.withdrawPlan tag .ok [.code 0]
          { s with library := { s.library with
              slots := Table.set Slot.empty s.library.slots n Slot.empty
              freeList := s.library.freeList ++ [n]
              checkQueue := s.library.checkQueue.filter (· != n)
              checking := s.library.checking && decide (s.library.checkQueue.head? ≠ some n) } }) ∧
      ((s.slot n).state = .posted →
        (s.storing = true →
          exec (.withdrawPlan tag n) s = answered Kind.withdrawPlan tag .busy [.code 3] s) ∧
        (s.storing = false → (s.slot n).refs = 0 →
          exec (.withdrawPlan tag n) s = answered Kind.withdrawPlan tag .ok [.code 0]
            (askPass .asked { s with library := { s.library with
              slots := Table.set Slot.empty s.library.slots n Slot.empty
              freeList := s.library.freeList ++ [n] } })) ∧
        (s.storing = false → (s.slot n).refs ≠ 0 →
          exec (.withdrawPlan tag n) s = answered Kind.withdrawPlan tag .ok [.code 4]
            (askPass .asked (s.setSlot n { s.slot n with state := .retiring })))) ∧
      ((s.slot n).state = .retiring →
        exec (.withdrawPlan tag n) s = answered Kind.withdrawPlan tag .wrongState [.code 4] s)))

/-- WRITE-PLAN-HEADER. A slot that is not FILLING refuses it (R21). Of a FILLING slot the first field out of range, in the order
of Table 2-1, refuses it, and otherwise the header, sp, lp and W clamped, replaces the slot's (R22). By which byte a refusal
names the field is a free value (assumption log 2). -/
def Obligations.HeaderIsJudgedAndClamped : Prop :=
  ∀ (tag : Byte) (n : Nat) (h : RawHeader) (s : State), Ready s →
    (96 ≤ n → exec (.writePlanHeader tag n h) s = answered Kind.writePlanHeader tag .outOfRange [] s) ∧
    (n ≤ 95 → (s.slot n).state = .checking →
      exec (.writePlanHeader tag n h) s = answered Kind.writePlanHeader tag .busy [] s) ∧
    (n ≤ 95 → (s.slot n).state = .free ∨ (s.slot n).state = .posted ∨ (s.slot n).state = .retiring →
      exec (.writePlanHeader tag n h) s = answered Kind.writePlanHeader tag .wrongState [] s) ∧
    (n ≤ 95 → (s.slot n).state = .filling → ∀ bad : List Bool,
      bad = [decide (h.plan = 0 ∨ 250 < h.plan), decide (h.group = 0 ∨ 64 < h.group),
             decide (h.cycle < 300 ∨ 2550 < h.cycle), decide (2 < h.mode), false, false, decide (h.window = 0),
             false, decide (h.count = 0 ∨ 48 < h.count)] →
      (∀ place, bad.findIdx? id = some place →
        exec (.writePlanHeader tag n h) s = answered Kind.writePlanHeader tag .outOfRange [.named place] s) ∧
      (∀ v : PlanHeader, bad.findIdx? id = none → v.mode.code = h.mode →
        v = { plan := h.plan, group := h.group, cycle := h.cycle, mode := v.mode, shorten := min 30 h.shorten,
              lengthen := min 50 h.lengthen, window := min 100 h.window, cohortKey := h.cohortKey,
              count := h.count } →
        exec (.writePlanHeader tag n h) s
          = answered Kind.writePlanHeader tag
              (if 30 < h.shorten ∨ 50 < h.lengthen ∨ 100 < h.window then .adjusted else .ok)
              v.fields (s.setSlot n { s.slot n with header := some v })))

/-- WRITE-PLAN-SITES. A slot that is not FILLING refuses it (R21). Of a FILLING slot it is refused whole, by its range or by its
first bad entry, or each entry carried replaces what its place held and every other place keeps its own (R23). The OK
reply's range is the first index and the number of entries (assumption log 28). -/
def Obligations.SiteEntriesReplaceTheirPlaces : Prop :=
  ∀ (tag : Byte) (n first : Nat) (es : List RawEntry) (s : State), Ready s →
    (96 ≤ n → exec (.writePlanSites tag n first es) s = answered Kind.writePlanSites tag .outOfRange [] s) ∧
    (n ≤ 95 → (s.slot n).state = .checking →
      exec (.writePlanSites tag n first es) s = answered Kind.writePlanSites tag .busy [] s) ∧
    (n ≤ 95 → (s.slot n).state = .free ∨ (s.slot n).state = .posted ∨ (s.slot n).state = .retiring →
      exec (.writePlanSites tag n first es) s = answered Kind.writePlanSites tag .wrongState [] s) ∧
    (n ≤ 95 → (s.slot n).state = .filling →
      (es.length = 0 ∨ 8 < es.length ∨ 48 < first + es.length →
        exec (.writePlanSites tag n first es) s
          = answered Kind.writePlanSites tag .outOfRange [.byte 255] s) ∧
      (∀ bad : RawEntry → Bool, 1 ≤ es.length → es.length ≤ 8 → first + es.length ≤ 48 →
        bad = (fun e => decide (e.site = 0 ∨ 384 < e.site ∨ 2549 < e.offset ∨ e.intervals = 0 ∨ 8 < e.intervals)
          || (e.splits.take e.intervals).any (fun x => decide (x = 0 ∨ 2550 < x))
          || decide (e.modeOverride ≠ 255 ∧ 2 < e.modeOverride)) →
        (∀ j, es.findIdx? bad = some j →
          exec (.writePlanSites tag n first es) s
            = answered Kind.writePlanSites tag .outOfRange [.byte (first + j)] s) ∧
        (es.findIdx? bad = none → ∃ places : Table (Option SiteEntry),
          exec (.writePlanSites tag n first es) s
            = answered Kind.writePlanSites tag .ok [.byte first, .byte es.length]
                (s.setSlot n { s.slot n with entries := places }) ∧
          ∀ i, Table.get none places i =
            (if first ≤ i ∧ i < first + es.length then (es[i - first]?).map storedEntry
             else Table.get none (s.slot n).entries i))))

/-- PLAN_CHECK_START and PLAN_CHECK_END (R24, R26, R30, R31): the checker takes the head of the check queue; a failed check
returns the slot to FILLING with its record, and a pass empties its entry places at indices of count or above, posts it under
its check code, retires or frees the slot it supersedes, and asks for a resolver pass. With nothing to start or to end, nothing
happens (assumption log 4). -/
def Obligations.PlanChecksEndInPassOrFail : Prop :=
  ∀ s : State,
    (s.library.checkQueue ≠ [] → s.library.checking = false →
      exec .planCheckStart s = .next (pump { s with library := { s.library with checking := true } })) ∧
    (s.library.checkQueue = [] ∨ s.library.checking = true → exec .planCheckStart s = .next (pump s)) ∧
    (s.library.checkQueue = [] ∨ s.library.checking = false → exec .planCheckEnd s = .next (pump s)) ∧
    (∀ n rest, s.library.checkQueue = n :: rest → s.library.checking = true →
      (∀ check index, planCheck s n (s.slot n).supersede = .failed check index →
        exec .planCheckEnd s = .next (pump (raisePlanChecked n (planOfSlot s n) check index none none
          { s with library := { s.library with
              checkQueue := rest, checking := false
              slots := Table.set Slot.empty s.library.slots n
                { s.slot n with state := .filling, checkCode := none, supersede := false } } }))) ∧
      (planCheck s n (s.slot n).supersede = .passed none →
        ∃ slot t, slot.state = .posted ∧ slot.header = (s.slot n).header ∧ slot.refs = (s.slot n).refs ∧
          slot.supersede = false ∧ slot.checkCode = some (crc16 slot.recordBytes) ∧
          slot.recordBytes = (s.slot n).recordBytes ∧ slot.recordEntries = (s.slot n).recordEntries ∧
          OnlyRecordPlaces (s.slot n) slot ∧
          t = { s with library := { s.library with
              checkQueue := rest, checking := false
              slots := Table.set Slot.empty s.library.slots n slot } } ∧
          exec .planCheckEnd s = .next (pump (askPass .asked
            (raisePlanChecked n (planOfSlot s n) 0 255 slot.checkCode none t)))) ∧
      (∀ m, planCheck s n (s.slot n).supersede = .passed (some m) →
        ∃ t : State,
          exec .planCheckEnd s = .next (pump (askPass .asked (raisePlanChecked n (planOfSlot s n) 0 255
            (t.slot n).checkCode (some (m, (t.slot m).state)) t))) ∧
          (t.slot n).state = .posted ∧ (t.slot n).header = (s.slot n).header ∧ (t.slot n).refs = (s.slot n).refs ∧
          (t.slot n).supersede = false ∧ (t.slot n).checkCode = some (crc16 (t.slot n).recordBytes) ∧
          (t.slot n).recordBytes = (s.slot n).recordBytes ∧ (t.slot n).recordEntries = (s.slot n).recordEntries ∧
          OnlyRecordPlaces (s.slot n) (t.slot n) ∧
          ((s.slot m).refs = 0 → t.slot m = Slot.empty ∧ t.library.freeList = s.library.freeList ++ [m]) ∧
          ((s.slot m).refs ≠ 0 → t.slot m = { s.slot m with state := .retiring } ∧
            t.library.freeList = s.library.freeList) ∧
          (∀ k, k ≠ n → k ≠ m → t.slot k = s.slot k) ∧
          t = { s with library := { s.library with
              checkQueue := rest, checking := false, slots := t.library.slots, freeList := t.library.freeList } }))

/-- R26 to R29: the plan check. It fails with the first check of Table 2-4 that fails and the lowest entry index at which that
one does, passes where none fails, and passes superseding where none fails and another slot is POSTED with the plan number.
R27, R28, R29: a record that it passes holds an entry at every index below its count; each entry names another member of the
header's group with an effective floor; its splits are one for each interval of the floor, sum to C, and stand at or above
the floor minimums; C lies within the floor's limits and the offset below C. -/
def Obligations.PassedPlanMeetsEveryFloor : Prop :=
  (∀ (s : State) (n : Nat) (supersede : Bool),
    (∀ c i, planCheck s n supersede = .failed c i ↔
      FailsAt s n supersede c i ∧ (∀ j, j < i → ¬ FailsAt s n supersede c j) ∧
        ∀ d j, d < c → ¬ FailsAt s n supersede d j) ∧
    (planCheck s n supersede = .passed none ↔ (∀ c i, ¬ FailsAt s n supersede c i) ∧
      ∀ h k v, (s.slot n).header = some h → (k, v) ∈ s.library.slots → k ≠ n → v.isPosted h.plan = false) ∧
    ((∃ m, planCheck s n supersede = .passed (some m)) ↔ (∀ c i, ¬ FailsAt s n supersede c i) ∧
      ∃ h k v, (s.slot n).header = some h ∧ (k, v) ∈ s.library.slots ∧ k ≠ n ∧ v.isPosted h.plan = true)) ∧
  ∀ (s : State) (n : Nat) (supersede : Bool) (m : Option Nat), planCheck s n supersede = .passed m →
    ∃ h : PlanHeader, (s.slot n).header = some h ∧
      (s.slot n).recordEntries.length = h.count ∧
      ((s.slot n).recordEntries.map (·.site)).Nodup ∧
      (∀ e ∈ (s.slot n).recordEntries,
        ∃ r f, s.rosterEntry e.site = some r ∧ r.group = h.group ∧ s.effectiveFloor e.site = some f ∧
          e.splits.length = f.intervals ∧ sumOf e.splits = h.cycle ∧
          (∀ p ∈ List.zip e.splits f.minimums, p.2 ≤ p.1) ∧
          f.minCycle ≤ h.cycle ∧ h.cycle ≤ f.maxCycle ∧ e.offset < h.cycle) ∧
      (m = none → ∀ k v, (k, v) ∈ s.library.slots → k ≠ n → v.isPosted h.plan = false) ∧
      (∀ k, m = some k → supersede = true ∧ k ≠ n ∧ ∃ v, (k, v) ∈ s.library.slots ∧ v.isPosted h.plan = true)

/-! ### Requests that only read -/

/-- The requests that only read are answered with what they report, and change nothing: STATUS (R190), READ-SITE (R148),
READ-PLAN (R37, at first index 48 too with number 0: assumption log 19), LIST-PLANS (R38), GROUP-STATUS (R81), SITE-STATUS
(R111, R168, with the ATTN level at its end: assumption log 42), LINE-STATUS with the clear mark clear (R165), and
LINE-CONTROL, SET-MONITOR and SET-FLAG-MASK with the read mark set (R150, R123, R172). READ-FLOOR (R142) changes nothing but
what it is told as it comes: the level of COMMISSION_EN and the bits programmed so far (assumption log 11, 29). Operands out
of range are refused. The fields stand in Safety.lean (`statusFields` to `groupStatusFields`); their widths where Table 12-1
gives none, and their presence bytes where no table lays the reply out, are the model's choice (assumption log 17), as are the
sites that STATUS counts, the online members of GROUP-STATUS and the reason in SITE-STATUS (assumption log 18, 45, 40). -/
def Obligations.ReadsChangeNothing : Prop :=
  ∀ (tag : Byte) (s : State), Ready s →
    exec (.status tag) s = answered Kind.status tag .ok (statusFields s) s ∧
    (∀ n,
      (n = 0 ∨ 384 < n → exec (.readSite tag n) s = answered Kind.readSite tag .outOfRange [] s ∧
        exec (.siteStatus tag n) s = answered Kind.siteStatus tag .outOfRange [] s) ∧
      (1 ≤ n → n ≤ 384 →
        (s.rosterEntry n = none → exec (.readSite tag n) s = answered Kind.readSite tag .notFound [] s ∧
          exec (.siteStatus tag n) s = answered Kind.siteStatus tag .notFound [] s) ∧
        (∀ e, s.rosterEntry n = some e →
          exec (.readSite tag n) s = answered Kind.readSite tag .ok (readSiteFields s n e) s ∧
          exec (.siteStatus tag n) s = answered Kind.siteStatus tag .ok (siteStatusFields s n e) s)) ∧
      (∀ seen, 384 < n →
        exec (.readFloor tag { site := n, seen := seen }) s = answered Kind.readFloor tag .outOfRange [] (look seen s)) ∧
      (∀ seen, n ≤ 384 →
        exec (.readFloor tag { site := n, seen := seen }) s
          = answered Kind.readFloor tag .ok (readFloorFields (look seen s) n) (look seen s))) ∧
    (∀ bits, s.floors.programmer = .idle →
      (s.pins.commissionEn = true → look { key := true, programmed := bits } s = s) ∧
      (s.pins.commissionEn = false → s.floors.windowOpen = false → s.floors.windowCount = 0 →
        look { key := false, programmed := bits } s = s)) ∧
    (∀ n first number,
      (n ≤ 95 → number ≤ 8 → first + number ≤ 48 →
        exec (.readPlan tag n first number) s
          = answered Kind.readPlan tag .ok (readPlanFields s n first number) s) ∧
      (96 ≤ n ∨ 8 < number ∨ 48 < first + number →
        exec (.readPlan tag n first number) s = answered Kind.readPlan tag .outOfRange [] s)) ∧
    (∀ (selection : Byte) first number,
      (selection.toNat ≤ 15 → first ≤ 95 → 1 ≤ number → number ≤ 48 → first + number ≤ 96 →
        exec (.listPlans tag selection first number) s
          = answered Kind.listPlans tag .ok (listPlansFields s selection first number) s) ∧
      (16 ≤ selection.toNat ∨ 95 < first ∨ number = 0 ∨ 48 < number ∨ 96 < first + number →
        exec (.listPlans tag selection first number) s = answered Kind.listPlans tag .outOfRange [] s)) ∧
    (∀ g,
      (1 ≤ g → g ≤ 64 →
        exec (.groupStatus tag g) s = answered Kind.groupStatus tag .ok (groupStatusFields s g) s) ∧
      (g = 0 ∨ 64 < g → exec (.groupStatus tag g) s = answered Kind.groupStatus tag .outOfRange [] s)) ∧
    (∀ l, l ≤ 7 →
      (∃ fields, exec (.lineStatus tag l 0) s = answered Kind.lineStatus tag .ok fields s) ∧
      (∀ r, exec (.lineControl tag l 1 r) s = answered Kind.lineControl tag .ok
        ((s.line l).settings.fields ++ (s.line l).settings.fields ++ [.code (s.line l).state.code]) s)) ∧
    (∀ l read r, 7 < l ∨ 1 < read →
      exec (.lineControl tag l read r) s = answered Kind.lineControl tag .outOfRange [] s) ∧
    (∀ tolerance code,
      exec (.setMonitor tag 1 tolerance code) s = answered Kind.setMonitor tag .ok
        [.length s.monitor.tolerance, .code s.monitor.limitCode, .length s.monitor.tolerance, .code s.monitor.limitCode,
         .byte (holdLimit s.monitor.limitCode), .total (heldSites s).length] s ∧
      (∀ read, 1 < read →
        exec (.setMonitor tag read tolerance code) s = answered Kind.setMonitor tag .outOfRange [] s)) ∧
    (∀ mask,
      exec (.setFlagMask tag 1 mask) s = answered Kind.setFlagMask tag .ok
        [.flags s.flags.mask, .flags s.flags.mask, .mark s.flags.attn, .total (sitesCounted s.flags)] s ∧
      (∀ read, 1 < read → exec (.setFlagMask tag read mask) s = answered Kind.setFlagMask tag .outOfRange [] s))

/-! ### Timetables and schedule resolution -/

/-- WRITE-DAY-PROGRAM (R41), and WRITE-WEEK and READ-WEEK (R43) of a frame's seven program numbers: refused with the first bad
item, or the whole is replaced and nothing else is. That program entries are indexed from 0 is the model's choice (assumption
log 48); weekdays are numbered from 0 by R43. -/
def Obligations.DayProgramsAndWeeksAreReplacedWhole : Prop :=
  (∀ (tag : Byte) (p : Nat) (es : List RawProgramEntry) (s : State), Ready s →
    (p = 0 ∨ 64 < p ∨ 24 < es.length →
      exec (.writeDayProgram tag p es) s = answered Kind.writeDayProgram tag .outOfRange [.byte 255] s) ∧
    (1 ≤ p → p ≤ 64 → es.length ≤ 24 →
      (∀ j, es.findIdx? (fun e => decide (1439 < e.start ∨ 250 < e.plan ∨ 1 < e.notify)) = some j →
        exec (.writeDayProgram tag p es) s = answered Kind.writeDayProgram tag .outOfRange [.byte j] s) ∧
      (es.findIdx? (fun e => decide (1439 < e.start ∨ 250 < e.plan ∨ 1 < e.notify)) = none →
        (∀ j, firstUnordered (es.map (·.start)) = some j →
          exec (.writeDayProgram tag p es) s = answered Kind.writeDayProgram tag .duplicate [.byte j] s) ∧
        (firstUnordered (es.map (·.start)) = none →
          (s.storing = true →
            exec (.writeDayProgram tag p es) s = answered Kind.writeDayProgram tag .busy [] s) ∧
          (s.storing = false → ∃ t : State,
            exec (.writeDayProgram tag p es) s = .next (pump (askPass .asked
              (answer Kind.writeDayProgram tag .ok [.byte p, .byte es.length] t))) ∧
            t = { s with resolver := { s.resolver with programs := t.resolver.programs } } ∧
            t.program p = es.map storedProgramEntry ∧ ∀ q, q ≠ p → t.program q = s.program q))))) ∧
  (∀ (tag : Byte) (g : Nat) (ps : List Nat) (s : State), Ready s → ps.length = 7 →
    (g = 0 ∨ 64 < g →
      exec (.writeWeek tag g ps) s = answered Kind.writeWeek tag .outOfRange [.byte 255] s ∧
      exec (.readWeek tag g) s = answered Kind.readWeek tag .outOfRange [] s) ∧
    (1 ≤ g → g ≤ 64 →
      exec (.readWeek tag g) s = answered Kind.readWeek tag .ok ((s.week g).map .byte) s ∧
      (∀ d, ps.findIdx? (fun p => decide (64 < p)) = some d →
        exec (.writeWeek tag g ps) s = answered Kind.writeWeek tag .outOfRange [.byte d] s) ∧
      (ps.findIdx? (fun p => decide (64 < p)) = none →
        (s.storing = true → exec (.writeWeek tag g ps) s = answered Kind.writeWeek tag .busy [] s) ∧
        (s.storing = false → ∃ t : State,
          exec (.writeWeek tag g ps) s
            = .next (pump (askPass .asked (answer Kind.writeWeek tag .ok [] t))) ∧
          t = { s with resolver := { s.resolver with weeks := t.resolver.weeks } } ∧
          t.week g = ps ∧ ∀ k, k ≠ g → t.week k = s.week k))))

/-- WRITE-EVENT (R45, R46) and DELETE-EVENT (R47). The first field out of range refuses an entry, in the order of R46: the id,
then the fields of Table 3-1, of which those of the other action are not judged. By which byte a refusal names a field is a
free value (assumption log 2). That the group list is indexed from 0 is the model's choice (assumption log 48). -/
def Obligations.EventsAreWrittenAndDeleted : Prop :=
  (∀ (tag : Byte) (e : RawEvent) (s : State), Ready s → ∀ bad : List Bool,
    bad = [decide (e.id = 0 ∨ 128 < e.id), decide (e.lastDay < e.firstDay),
      decide (e.weekdays = 0) || e.weekdays.getLsbD 7,
      decide (e.groups.length = 0 ∨ 64 < e.groups.length) || e.groups.any (fun g => decide (g = 0 ∨ 64 < g)),
      decide (1 < e.action), decide (e.action = 0 ∧ 250 < e.plan),
      decide (e.action = 0 ∧ (1439 < e.start ∨ e.stop = 0 ∨ 1440 < e.stop ∨ e.stop ≤ e.start)),
      decide (e.action = 1 ∧ (e.program = 0 ∨ 64 < e.program)), decide (e.priority = 0 ∨ 15 < e.priority),
      decide (1 < e.notify)] →
    (∀ place, bad.findIdx? id = some place →
      exec (.writeEvent tag e) s = answered Kind.writeEvent tag .outOfRange [.named place] s) ∧
    (bad.findIdx? id = none →
      (∀ j, firstRepeat e.groups = some j →
        exec (.writeEvent tag e) s = answered Kind.writeEvent tag .duplicate [.byte j] s) ∧
      (firstRepeat e.groups = none →
        (s.storing = true → exec (.writeEvent tag e) s = answered Kind.writeEvent tag .busy [] s) ∧
        (s.storing = false → 4294967295 ≤ s.resolver.sequence →
          exec (.writeEvent tag e) s = answered Kind.writeEvent tag .noSpace [] s) ∧
        (s.storing = false → s.resolver.sequence < 4294967295 → ∃ t : State,
          exec (.writeEvent tag e) s = .next (pump (askPass .asked (answer Kind.writeEvent tag .ok
            [.byte e.id, .large s.resolver.sequence, .byte (eventsHeld t), .mark (s.event e.id).isSome] t))) ∧
          t = { s with resolver := { s.resolver with
                events := t.resolver.events, sequence := s.resolver.sequence + 1 } } ∧
          t.event e.id = some { firstDay := e.firstDay, lastDay := e.lastDay, weekdays := e.weekdays, groups := e.groups
                                action := if e.action = 0 then .plan e.plan e.start e.stop else .program e.program
                                priority := e.priority, notify := decide (e.notify = 1)
                                sequence := s.resolver.sequence } ∧
          ∀ k, k ≠ e.id → t.event k = s.event k)))) ∧
  (∀ (tag : Byte) (id : Nat) (s : State), Ready s →
    (id = 0 ∨ 128 < id → exec (.deleteEvent tag id) s = answered Kind.deleteEvent tag .outOfRange [] s) ∧
    (1 ≤ id → id ≤ 128 →
      (s.storing = true → exec (.deleteEvent tag id) s = answered Kind.deleteEvent tag .busy [] s) ∧
      (s.storing = false → s.event id = none →
        exec (.deleteEvent tag id) s = answered Kind.deleteEvent tag .notFound [] s) ∧
      (s.storing = false → s.event id ≠ none → ∃ t : State,
        exec (.deleteEvent tag id) s
          = .next (pump (askPass .asked (answer Kind.deleteEvent tag .ok [.byte (eventsHeld t)] t))) ∧
        t = { s with resolver := { s.resolver with events := t.resolver.events } } ∧
        t.event id = none ∧ ∀ k, k ≠ id → t.event k = s.event k)))

/-- FORCE-PLAN (R49) and RELEASE-FORCE (R51). A timed force ends its duration, clamped to 1440 minutes, after the day and
minute at which the request is served, the next day where that reaches minute 1440. By which byte a refusal names a field is
a free value (assumption log 2); that DUPLICATE carries no field is the model's reading (assumption log 28), and the
presence byte of the end its choice (assumption log 17). -/
def Obligations.ForcesAreSetAndReleased : Prop :=
  (∀ (tag : Byte) (plan duration : Nat) (gs : List Nat) (s : State), Ready s →
      (∀ place, [decide (gs.length = 0 ∨ 64 < gs.length) || gs.any (fun g => decide (g = 0 ∨ 64 < g)),
          decide (250 < plan), decide (duration = 0)].findIdx? id = some place →
        exec (.forcePlan tag plan duration gs) s = answered Kind.forcePlan tag .outOfRange [.named place] s) ∧
      (1 ≤ gs.length → gs.length ≤ 64 → (∀ g ∈ gs, 1 ≤ g ∧ g ≤ 64) → plan ≤ 250 → duration ≠ 0 →
        (¬ gs.Nodup → exec (.forcePlan tag plan duration gs) s = answered Kind.forcePlan tag .duplicate [] s) ∧
        (gs.Nodup →
          (plan ≠ 0 → postedSlot s plan = none →
            exec (.forcePlan tag plan duration gs) s = answered Kind.forcePlan tag .notFound [] s) ∧
          ((plan = 0 ∨ postedSlot s plan ≠ none) →
            (duration ≠ 65535 → s.time.valid = false →
              exec (.forcePlan tag plan duration gs) s = answered Kind.forcePlan tag .noTime [] s) ∧
            (∀ ends, (duration = 65535 ∧ ends = none) ∨
                (duration ≠ 65535 ∧ s.time.valid = true ∧
                  (s.time.timeOfDay / 600 + min duration 1440 < 1440 →
                    ends = some (s.time.day, s.time.timeOfDay / 600 + min duration 1440)) ∧
                  (1440 ≤ s.time.timeOfDay / 600 + min duration 1440 →
                    ends = some ((s.time.day + 1) % 65536, s.time.timeOfDay / 600 + min duration 1440 - 1440))) →
              ∃ t : State,
                exec (.forcePlan tag plan duration gs) s = .next (pump (askPass .asked (answer Kind.forcePlan tag
                  (if duration ≠ 65535 ∧ 1440 < duration then .adjusted else .ok)
                  (withPresence [opt (may (ends.map (·.1)) 0 (fun d => [.day d])),
                    opt (may (ends.map (·.2)) 0 (fun m => [.minute m]))]) t))) ∧
                t = { s with resolver := { s.resolver with forces := t.resolver.forces } } ∧
                (∀ g ∈ gs, t.forceOf g = some { plan := plan, ends := ends }) ∧
                (∀ g, g ∉ gs → t.forceOf g = s.forceOf g)))))) ∧
  (∀ (tag : Byte) (gs : List Nat) (s : State), Ready s →
      (gs.length = 0 ∨ 64 < gs.length ∨ (∃ g ∈ gs, g = 0 ∨ 64 < g) →
        exec (.releaseForce tag gs) s = answered Kind.releaseForce tag .outOfRange [] s) ∧
      (1 ≤ gs.length → gs.length ≤ 64 → (∀ g ∈ gs, 1 ≤ g ∧ g ≤ 64) →
        (¬ gs.Nodup → exec (.releaseForce tag gs) s = answered Kind.releaseForce tag .duplicate [] s) ∧
        (gs.Nodup → ∃ t : State,
          exec (.releaseForce tag gs) s = .next (pump (askPass .asked (answer Kind.releaseForce tag .ok
            [.byte (gs.filter (fun g => (s.forceOf g).isSome)).length] t))) ∧
          t = { s with resolver := { s.resolver with forces := t.resolver.forces } } ∧
          (∀ g ∈ gs, t.forceOf g = none) ∧ (∀ g, g ∉ gs → t.forceOf g = s.forceOf g))))

/-- R53, R54, R58 step 2: how one group of a pass resolves. A force governs before the calendar, and the winning calendar entry,
by priority and then by write sequence number, before the week table. Of the day program in use, from a PROGRAM entry or from
the week table, the entry with the largest start minute at or below the minute governs; where there is none, the previous
day carries over: the PLAN entry that won at its last minute, the last entry of the program then in use, or nothing. -/
def Obligations.ResolutionPrefersForceThenEvent : Prop :=
  ∀ (s : State) (g day minute : Nat), TablesCanonical s →
    (∀ f, s.forceOf g = some f →
      resolve s g day minute
        = { source := { kind := .force, eventId := 0, programEntry := none }, plan := f.plan, carry := false }) ∧
    (s.forceOf g = none →
      (∀ id e n a b, Wins s g day minute id e → e.action = .plan n a b →
        resolve s g day minute
          = { source := { kind := .event, eventId := id, programEntry := none }, plan := n, carry := false }) ∧
      (∀ p id e, InUse s g day minute p id → e ∈ s.program p → e.start ≤ minute →
        (∀ x ∈ s.program p, x.start ≤ minute → x.start ≤ e.start) → ((s.program p).map (·.start)).Pairwise (· < ·) →
        resolve s g day minute
          = { source := { kind := .programEntry, eventId := id, programEntry := some (p, e.start) },
              plan := e.plan, carry := false }) ∧
      (NoEntry s g day minute → (s.week g).getD ((day + 5) % 7) 0 = 0 →
        resolve s g day minute
          = { source := { kind := .nothing, eventId := 0, programEntry := none }, plan := 0, carry := false }) ∧
      (∀ p id before, InUse s g day minute p id → (∀ x ∈ s.program p, minute < x.start) →
        before = (if day = 0 then 65535 else day - 1) →
        (∀ k e n a b, Wins s g before 1439 k e → e.action = .plan n a b →
          resolve s g day minute
            = { source := { kind := .event, eventId := k, programEntry := none }, plan := n, carry := true }) ∧
        (∀ q k, InUse s g before 1439 q k →
          (∀ e, e ∈ s.program q → e.start ≤ 1439 → (∀ x ∈ s.program q, x.start ≤ e.start) →
            ((s.program q).map (·.start)).Pairwise (· < ·) →
            resolve s g day minute
              = { source := { kind := .programEntry, eventId := k, programEntry := some (q, e.start) },
                  plan := e.plan, carry := true }) ∧
          (s.program q = [] →
            resolve s g day minute
              = { source := { kind := .nothing, eventId := 0, programEntry := none }, plan := 0, carry := true })) ∧
        (NoEntry s g before 1439 → (s.week g).getD ((before + 5) % 7) 0 = 0 →
          resolve s g day minute
            = { source := { kind := .nothing, eventId := 0, programEntry := none }, plan := 0, carry := true })))

/-- RESOLVER_PASS (R50, R52, R53, R55, R57, R58): the pass asked for first is made (of several owed at one count the oldest
is, the model's choice: assumption log 5). A force whose end lies at or before the pass's day and minute, by the difference
of the minute counts reduced modulo 65536 days, is gone, and an open force or one whose end is not reached stands. Each
group with members is governed by its resolution at the pass's day and minute, with a missing record exactly where the
mapping fails; an EMPTY group's governing record is at its reset value. Group by group in ascending order, PLAN-MISSING and
ENTRY-TAKEN are raised as R55 and R56 say; the notices of the switches that follow (R80, R102, R110, R79) come after them. The
widths and presence bytes of a notice's fields are those of Table 12-9 (assumption log 17 where it types none). The pass
leaves everything outside the resolver, the groups, the slots, the trackers, the links and the retained resume records as it
was. With none asked for, no pass is made (assumption log 4). -/
def Obligations.ResolverPassGovernsEveryGroup : Prop :=
  (∀ s : State, s.resolver.owed = [] → exec .resolverPass s = .next (pump s)) ∧
  (∀ (s : State) (p : PassAsk) (rest : List PassAsk) (day minute : Nat) (t0 : Count),
    s.resolver.owed = p :: rest →
    (p = .signal day minute t0 ∨ (p = .asked ∧ day = s.time.day ∧ minute = s.time.timeOfDay / 600 ∧ t0 = s.time.count)) →
    ∃ t u : State, exec .resolverPass s = .next (pump t) ∧
      u = expireForces day minute { s with resolver := { s.resolver with owed := rest } } ∧
      t.resolver.owed = rest ∧ t.resolver.forces = u.resolver.forces ∧
      (Table.wf none s.resolver.forces = true → ∀ g,
        (s.forceOf g = none → t.forceOf g = none) ∧
        (∀ f, s.forceOf g = some f → f.ends = none → t.forceOf g = some f) ∧
        (∀ (f : Force) (endDay endMinute : Nat) (r k : Int), s.forceOf g = some f → f.ends = some (endDay, endMinute) →
          ((day * 1440 + minute : Nat) : Int) - ((endDay * 1440 + endMinute : Nat) : Int) = r + 94371840 * k →
          -47185920 ≤ r → r ≤ 47185919 →
          (0 ≤ r → t.forceOf g = none) ∧ (r < 0 → t.forceOf g = some f))) ∧
      t.resolver.programs = s.resolver.programs ∧ t.resolver.weeks = s.resolver.weeks ∧
      t.resolver.events = s.resolver.events ∧ t.resolver.sequence = s.resolver.sequence ∧
      (∀ g, 1 ≤ g → g ≤ 64 → (s.group g).state = .empty → t.governing g = Governing.reset) ∧
      (∀ g, 1 ≤ g → g ≤ 64 → (s.group g).state ≠ .empty →
        (t.governing g).source = (resolve u g day minute).source ∧
        (t.governing g).plan = (resolve u g day minute).plan ∧
        (t.governing g).carry = (resolve u g day minute).carry ∧
        ((t.governing g).missing = none ↔ (mapPlan s (resolve u g day minute).plan).isSome = true) ∧
        ((t.governing g).missing ≠ none →
          (t.governing g).missing = some ((resolve u g day minute).source, (resolve u g day minute).plan))) ∧
      (∃ rest, Notices s t ((upTo 64).flatMap (fun g =>
          if (s.group g).state = .empty then [] else passNotices s day minute g (resolve u g day minute)) ++ rest) ∧
        OfKinds [.switchDone, .seekBlocked, .siteState, .groupSettled] rest) ∧
      t.time = s.time ∧ t.floors = s.floors ∧ t.store = s.store ∧ t.startUp = s.startUp ∧ t.pins = s.pins ∧
      t.pending = s.pending ∧ t.roster = s.roster ∧ t.lines = s.lines ∧ t.monitor = s.monitor ∧
      t.flags = s.flags ∧ t.handed = s.handed ∧ t.retained.holds = s.retained.holds ∧
      t.retained.cause = s.retained.cause)

/-- RESOLVER_PASS, its requests (R59, R60, R67, R69, R73, R74). Every group with members compares the target it resolves to with
its pending target, or with its current one where no switch is pending. A group whose mapping fails, or that is there already,
keeps its switch. A pending switch is cancelled by the current target and retargeted by another. A group with none pending
opens one at its own next zero, or, with two or more starting requests of one key and cycle length, at the latest of theirs,
or takes it at once where that is T0. The pass finds the groups as `u`. -/
def Obligations.PassHandsOverItsRequests : Prop :=
  ∀ (s u : State) (p : PassAsk) (rest : List PassAsk) (day minute : Nat) (t0 : Count), TablesCanonical s →
    s.resolver.owed = p :: rest →
    (p = .signal day minute t0 ∨ (p = .asked ∧ day = s.time.day ∧ minute = s.time.timeOfDay / 600 ∧ t0 = s.time.count)) →
    u = expireForces day minute { s with resolver := { s.resolver with owed := rest } } →
    ∃ t : State, exec .resolverPass s = .next (pump t) ∧
      (∀ g, 1 ≤ g → g ≤ 64 → (u.group g).members ≠ 0 →
        (mapPlan u (resolve u g day minute).plan = none →
          (t.group g).pending = (u.group g).pending ∧ (t.group g).reference = (u.group g).reference) ∧
        (∀ w, mapPlan u (resolve u g day minute).plan = some w →
          (∀ q, (u.group g).pending = some q →
            (t.group g).reference = (u.group g).reference ∧
            (q.target = w → (t.group g).pending = some q) ∧
            (q.target ≠ w → (u.group g).current = w → (t.group g).pending = none) ∧
            (q.target ≠ w → (u.group g).current ≠ w → (t.group g).pending = some { q with target := w })) ∧
          ((u.group g).pending = none → (u.group g).current = w →
            (t.group g).pending = none ∧ (t.group g).reference = (u.group g).reference) ∧
          (∀ cohort d, (u.group g).pending = none → (u.group g).current ≠ w → OpensWith u day minute g t0 w cohort d →
            (d ≠ 0 → (t.group g).reference = (u.group g).reference ∧
              (t.group g).pending = some { target := w, instant := later t0 d, opening := t0 } ∧
              (t.group g).cohort = cohort.filter (· != g)) ∧
            (d = 0 → (t.group g).pending = none ∧ (t.group g).cohort = [] ∧ (t.group g).lastSwitch = some t0 ∧
              (w = .free → (t.group g).reference = none) ∧
              (∀ k h, w = .slot k → (u.slot k).header = some h →
                (t.group g).reference = some { slot := k, plan := h.plan, epoch := t0, cycle := h.cycle }))))) ∧
      (∀ g, (u.group g).members = 0 →
        (t.group g).pending = (u.group g).pending ∧ (t.group g).reference = (u.group g).reference)

/-! ### Groups -/

/-- R68: the own next zero of a group at T0, as ds after T0. -/
def Obligations.OwnNextZeroIsTheFirstMasterZero : Prop :=
  ∀ (r : GroupRecord) (t0 : Count),
    (∀ c d, r.reference = some c → 0 < c.cycle → d = sdiff t0 c.epoch →
      (d % (c.cycle : Int) = 0 → untilNextZero r t0 = 0) ∧
      (d % (c.cycle : Int) ≠ 0 → (untilNextZero r t0 : Int) = c.cycle - d % (c.cycle : Int)) ∧
      d + untilNextZero r t0 = c.cycle * (-(-d / (c.cycle : Int))) ∧
      (d + untilNextZero r t0) % (c.cycle : Int) = 0 ∧
      (∀ k : Nat, k < untilNextZero r t0 → (d + k) % (c.cycle : Int) ≠ 0) ∧
      untilNextZero r t0 ≤ c.cycle - 1) ∧
    (r.reference = none → untilNextZero r t0 = 0)

/-- EPOCH_RENEWAL (R66, R82): due at a master zero at least 16,777,216 ds after E, it makes E the present count in the group
and in its resume record, and moves no master zero. At any other time nothing is renewed (assumption log 4). -/
def Obligations.RenewalKeepsMasterZeros : Prop :=
  (∀ (g : Nat) (s : State) (c : Reference), (s.group g).reference = some c →
    (sdiff s.time.count c.epoch % (c.cycle : Int) = 0 ∧ 16777216 ≤ sdiff s.time.count c.epoch →
      exec (.epochRenewal g) s = .next (pump
        ((s.setGroup g { s.group g with reference := some { c with epoch := s.time.count } }).setResume g
          { s.resumeOf g with epoch := s.time.count }))) ∧
    (¬ (sdiff s.time.count c.epoch % (c.cycle : Int) = 0 ∧ 16777216 ≤ sdiff s.time.count c.epoch) →
      exec (.epochRenewal g) s = .next (pump s))) ∧
  (∀ (g : Nat) (s : State), (s.group g).reference = none → exec (.epochRenewal g) s = .next (pump s)) ∧
  (∀ (c : Reference) (e t : Count), 0 < c.cycle → sdiff e c.epoch % (c.cycle : Int) = 0 →
    -2147483648 ≤ sdiff t e + sdiff e c.epoch → sdiff t e + sdiff e c.epoch < 2147483648 →
    masterPosition { c with epoch := e } t = masterPosition c t)

/-- SWITCH_TAKEN at Ts (R70, R71, R82, R34, R35): the group's reference becomes the pending slot with E = Ts, or none for
FREE; its cohort, pending switch and observed marks are gone; the resume record is written; and the reference on the old
slot is released. Each member's unacknowledged order is computed afresh (R103), its target before the switch is its previous
target, and its state follows its new current target (R104; the recomputation still reads the previous target of the switch
before: assumption log 15). SWITCH-DONE is raised with the references before and after and the cohort at taking (R80), and
then what the members' orders and states raise (R102, R110, R79). At any other time nothing is taken (assumption log 4, 5).
The presence bytes of a notice are those of Table 12-9 (assumption log 17 for a list's bit). -/
def Obligations.SwitchIsTakenAtItsInstant : Prop :=
  ∀ (g : Nat) (s : State), TablesCanonical s →
    ((s.group g).pending = none → exec (.switchTaken g) s = .next (pump s)) ∧
    (∀ p, (s.group g).pending = some p → p.instant ≠ s.time.count → exec (.switchTaken g) s = .next (pump s)) ∧
    (∀ p, (s.group g).pending = some p → p.instant = s.time.count →
      ∃ t : State, exec (.switchTaken g) s = .next (pump t) ∧
        (t.group g).pending = none ∧ (t.group g).cohort = [] ∧ (t.group g).lastSwitch = some p.instant ∧
        (t.group g).observed = [] ∧ (t.group g).members = (s.group g).members ∧
        (p.target = .free → (t.group g).reference = none ∧ t.resumeOf g = ResumeRecord.free ∧
          (t.group g).settlePending = false) ∧
        (∀ k h, p.target = .slot k → (∀ c, (s.group g).reference = some c → c.slot ≠ k) →
          (s.slot k).header = some h →
          (t.group g).reference = some { slot := k, plan := h.plan, epoch := p.instant, cycle := h.cycle } ∧
          t.resumeOf g = { plan := h.plan, checkCode := (s.slot k).checkCode, cycle := h.cycle,
                           epoch := p.instant } ∧
          (t.group g).settlePending = true ∧ t.slot k = s.slot k) ∧
        (∀ c, (s.group g).reference = some c → Released s t c.slot) ∧
        ((s.group g).reference = none → t.library = s.library) ∧
        MembersFollow s t g ∧
        (∃ rest, Notices s t
            (switchDone g (s.group g).reference (t.group g).reference false p.opening (s.group g).cohort :: rest) ∧
          OfKinds [.seekBlocked, .siteState, .groupSettled] rest) ∧
        (∀ k, k ≠ g → t.group k = s.group k ∧ t.resumeOf k = s.resumeOf k) ∧
        t.time = s.time ∧ t.resolver = s.resolver ∧ t.roster = s.roster ∧ t.lines = s.lines ∧
        t.monitor = s.monitor ∧ t.floors = s.floors ∧ t.flags = s.flags ∧ t.handed = s.handed ∧
        t.store = s.store ∧ t.startUp = s.startUp ∧ t.pins = s.pins ∧ t.retained.holds = s.retained.holds)

/-- R67, R69, R73, R74, R75: what one switch request of a pass does to its group and to the references on slots. An opening
takes a reference on its slot; after T0 it is pending, and at T0 it is taken at once (R70, R71, R82). A retarget releases
the old pending slot and takes the new one, a cancel releases the pending slot, and both leave the cohort. Each of them
brings the recomputation of the members' unacknowledged orders under the new switch (R103), and a switch taken at once the
rest of R104 too (the recomputation reads the previous target of the switch before: assumption log 15). A switch taken at once
raises SWITCH-DONE with its immediate mark (R80); the others raise no notice of their own, and their recomputations none but
SEEK-BLOCKED (R102). The presence bytes of a notice are those of Table 12-9 (assumption log 17 for a list's bit). -/
def Obligations.SwitchRequestOpensRetargetsOrCancels : Prop :=
  ∀ (q : SwitchRequest) (delay : Nat) (s t : State), t = serveSwitch q delay s →
    ((s.group q.group).state = .empty → t = s) ∧
    ((s.group q.group).state ≠ .empty →
      ((s.group q.group).pending = none → (s.group q.group).current = q.target → t = s) ∧
      ((s.group q.group).pending = none → (s.group q.group).current ≠ q.target → delay ≠ 0 →
        t.group q.group = { s.group q.group with
          pending := some { target := q.target, instant := later q.t0 delay, opening := q.t0 }
          cohort := q.cohort.filter (· != q.group) } ∧
        (∀ k, q.target = .slot k → t.slot k = { s.slot k with refs := (s.slot k).refs + 1 }) ∧
        (∀ k, q.target ≠ .slot k → t.slot k = s.slot k) ∧
        (∀ k, k ≠ q.group → t.group k = s.group k) ∧
        (∃ rest, Notices s t rest ∧ OfKinds [.seekBlocked] rest) ∧
        (TablesCanonical s → MembersRecomputed s t q.group)) ∧
      ((s.group q.group).pending = none → (s.group q.group).current ≠ q.target → delay = 0 → TablesCanonical s →
        (t.group q.group).pending = none ∧ (t.group q.group).cohort = [] ∧ (t.group q.group).observed = [] ∧
        (t.group q.group).lastSwitch = some q.t0 ∧ (t.group q.group).members = (s.group q.group).members ∧
        (q.target = .free → (t.group q.group).reference = none ∧ t.resumeOf q.group = ResumeRecord.free) ∧
        (∀ k h, q.target = .slot k → (s.slot k).header = some h →
          (t.group q.group).reference = some { slot := k, plan := h.plan, epoch := q.t0, cycle := h.cycle } ∧
          t.resumeOf q.group = { plan := h.plan, checkCode := (s.slot k).checkCode, cycle := h.cycle, epoch := q.t0 } ∧
          t.slot k = { s.slot k with refs := (s.slot k).refs + 1 }) ∧
        (∀ c, (s.group q.group).reference = some c → Released s t c.slot) ∧
        MembersFollow s t q.group ∧
        (∃ rest, Notices s t (switchDone q.group (s.group q.group).reference (t.group q.group).reference true q.t0
            (s.group q.group).cohort :: rest) ∧ OfKinds [.seekBlocked, .siteState, .groupSettled] rest) ∧
        (∀ k, k ≠ q.group → t.group k = s.group k)) ∧
      (∀ p, (s.group q.group).pending = some p →
        (p.target = q.target → t = s) ∧
        (p.target ≠ q.target → TablesCanonical s → MembersRecomputed s t q.group) ∧
        (p.target ≠ q.target → ∃ rest, Notices s t rest ∧ OfKinds [.seekBlocked] rest) ∧
        (p.target ≠ q.target → q.group ∉ (s.group q.group).cohort →
          (∀ k, p.target = .slot k → Released s t k) ∧
          (p.target = .free → t.library.freeList = s.library.freeList) ∧
          (∀ k ∈ (s.group q.group).cohort, (s.group q.group).cohort.Nodup →
            t.group k = { s.group k with cohort := (s.group k).cohort.filter (· != q.group) }) ∧
          ((s.group q.group).current = q.target →
            t.group q.group = { s.group q.group with pending := none, cohort := [] } ∧
            (∀ k, p.target ≠ .slot k → t.slot k = s.slot k)) ∧
          ((s.group q.group).current ≠ q.target →
            t.group q.group = { s.group q.group with pending := some { p with target := q.target }, cohort := [] } ∧
            (∀ k, q.target = .slot k → t.slot k = { s.slot k with refs := (s.slot k).refs + 1 }) ∧
            (∀ k, p.target ≠ .slot k → q.target ≠ .slot k → t.slot k = s.slot k)))))

/-- R76 and R77 as roster edits make them happen, whether or not WRITE-SITE also moves the site to another line or address. A
site that joins, a new one or one of the roster, raises the member count, and the first member of an EMPTY group makes it FREE
and asks for a pass. A site that leaves lowers the member count, takes its part in the in-step count and its observed mark
with it; the switch of a group that keeps members stands. A group left by its last member is EMPTY: its references are
released, it leaves its cohort and its resume record is at plan 0. A site that moves within its group goes OFFLINE (R105) and
keeps its membership (R78). Which of two references joins the free list first is the model's choice (assumption log 46). -/
def Obligations.GroupsFollowTheirMembers : Prop :=
  ∀ (tag : Byte) (n : Nat) (s : State), Ready s → TablesCanonical s →
    (∀ l a g, WriteSiteFits s n l a g → s.rosterEntry n = none → g ≠ 0 → ∃ (t : State) (fields : List Field),
      exec (.writeSite tag n l a g) s = answered Kind.writeSite tag .ok fields t ∧
      t.group g = { s.group g with members := (s.group g).members + 1 } ∧ (∀ k, k ≠ g → t.group k = s.group k) ∧
      t.library = s.library ∧ t.retained = s.retained ∧ AsksAsFirst s t g) ∧
    (∀ l a g old, WriteSiteFits s n l a g → s.rosterEntry n = some old → old.group = 0 → g ≠ 0 →
      ∃ (t : State) (fields : List Field),
      exec (.writeSite tag n l a g) s = answered Kind.writeSite tag .ok fields t ∧
      JoinsGroup s t g ∧ (t.group g).cohort = (s.group g).cohort ∧ (∀ k, k ≠ g → t.group k = s.group k) ∧
      t.library = s.library ∧ t.retained = s.retained ∧ AsksAsFirst s t g) ∧
    (∀ l a g old, WriteSiteFits s n l a g → s.rosterEntry n = some old → old.group ≠ g → old.group ≠ 0 →
      2 ≤ (s.group old.group).members → ∃ (t : State) (fields : List Field),
      exec (.writeSite tag n l a g) s = answered Kind.writeSite tag .ok fields t ∧
      (t.group old.group).members = (s.group old.group).members - 1 ∧
      KeepsSwitch (s.group old.group) (t.group old.group) ∧
      (t.group old.group).observed = (s.group old.group).observed.filter (· != n) ∧
      (t.group old.group).inStep = (s.group old.group).inStep - (if countsInStep s n then 1 else 0) ∧
      (g ≠ 0 → JoinsGroup s t g ∧ (t.group g).cohort = (s.group g).cohort ∧ AsksAsFirst s t g) ∧
      (g = 0 → t.resolver = s.resolver) ∧
      (∀ k, k ≠ g → k ≠ old.group → t.group k = s.group k) ∧ t.library = s.library ∧
      t.retained = s.retained) ∧
    (∀ l a g old, WriteSiteFits s n l a g → s.rosterEntry n = some old → old.group ≠ g → old.group ≠ 0 →
      (s.group old.group).members ≤ 1 → ∃ (t : State) (fields : List Field),
      exec (.writeSite tag n l a g) s = answered Kind.writeSite tag .ok fields t ∧
      GroupEmptied s t old.group ∧
      (g ≠ 0 → JoinsGroup s t g ∧ AsksAsFirst s t g ∧
        (g ∉ (s.group old.group).cohort → (t.group g).cohort = (s.group g).cohort) ∧
        (g ∈ (s.group old.group).cohort →
          (t.group g).cohort = (s.group g).cohort.filter (· != old.group))) ∧
      (g = 0 → t.resolver = s.resolver) ∧
      (∀ k, k ≠ old.group → k ≠ g → k ∉ (s.group old.group).cohort → t.group k = s.group k) ∧
      (∀ k ∈ (s.group old.group).cohort, k ≠ old.group → k ≠ g → (s.group old.group).cohort.Nodup →
        t.group k = { s.group k with cohort := (s.group k).cohort.filter (· != old.group) })) ∧
    (∀ l a old, WriteSiteFits s n l a old.group → s.rosterEntry n = some old → old.line ≠ l ∨ old.address ≠ a →
      ∃ (t : State) (fields : List Field),
      exec (.writeSite tag n l a old.group) s = answered Kind.writeSite tag .ok fields t ∧
      (∀ k, (t.group k).members = (s.group k).members ∧ KeepsSwitch (s.group k) (t.group k) ∧
        (t.group k).observed = (s.group k).observed) ∧
      (old.group ≠ 0 →
        (t.group old.group).inStep = (s.group old.group).inStep - (if countsInStep s n then 1 else 0)) ∧
      (∀ k, k = 0 ∨ k ≠ old.group → t.group k = s.group k) ∧
      t.library = s.library ∧ t.retained = s.retained ∧ t.resolver = s.resolver) ∧
    (∀ e, 1 ≤ n → n ≤ 384 → s.storing = false → s.rosterEntry n = some e → e.group ≠ 0 → ∃ t : State,
      exec (.removeSite tag n) s
        = answered Kind.removeSite tag .ok [.byte e.line, .byte e.address, .byte e.group, .mark t.flags.attn] t ∧
      t.resolver = s.resolver ∧
      (2 ≤ (s.group e.group).members →
        (t.group e.group).members = (s.group e.group).members - 1 ∧ KeepsSwitch (s.group e.group) (t.group e.group) ∧
        (t.group e.group).observed = (s.group e.group).observed.filter (· != n) ∧
        (t.group e.group).inStep = (s.group e.group).inStep - (if countsInStep s n then 1 else 0) ∧
        (∀ k, k ≠ e.group → t.group k = s.group k) ∧ t.library = s.library ∧ t.retained.resume = s.retained.resume) ∧
      ((s.group e.group).members ≤ 1 →
        GroupEmptied s t e.group ∧
        (∀ k, k ≠ e.group → k ∉ (s.group e.group).cohort → t.group k = s.group k) ∧
        (∀ k ∈ (s.group e.group).cohort, k ≠ e.group → (s.group e.group).cohort.Nodup →
          t.group k = { s.group k with cohort := (s.group k).cohort.filter (· != e.group) })))

/-! ### Orders -/

/-- R99: a LENGTHENED order. -/
def Obligations.LengthenedOrderGrowsTheCoordinatedSplit : Prop :=
  ∀ (t : SiteTarget) (w : Needs) (d a : Nat) (rest : List Nat), t.splits = a :: rest → sumOf t.splits = t.cycle →
    (corrected t w).kind = .lengthened → d = (corrected t w).correction →
    (corrected t w).length = some (t.cycle + d) ∧ (corrected t w).splits = (a + d) :: rest ∧
    sumOf (corrected t w).splits = t.cycle + d

/-- R100: a SHORTENED order for an entry that meets its floor. Interval 0 keeps its split; every other interval loses its whole
share of the correction over the excess, and as many intervals as are needed to make up the correction lose one ds more:
those with the largest remainders, the lower index first among equal ones, none with remainder 0. No interval loses more
than its excess, and the splits sum to L. -/
def Obligations.ShortenedOrderSharesTheCorrection : Prop :=
  ∀ (t : SiteTarget) (f : FloorValues) (w : Needs) (a d total : Nat) (rest lost xs q : List Nat), MeetsFloor t f →
    t.splits = a :: rest → (corrected t w).kind = .shortened → d = (corrected t w).correction →
    xs = List.zipWith (· - ·) rest f.minimums.tail → total = sumOf xs → q = xs.map (fun x => d * x % total) →
    lost = removals d xs →
    (corrected t w).length = some (t.cycle - d) ∧
    (corrected t w).splits = a :: List.zipWith (· - ·) rest lost ∧
    lost.length = rest.length ∧ sumOf lost = d ∧ sumOf (corrected t w).splits = t.cycle - d ∧
    (∀ i, i < rest.length →
      (lost.getD i 0 = d * xs.getD i 0 / total ∨
        (lost.getD i 0 = d * xs.getD i 0 / total + 1 ∧ q.getD i 0 ≠ 0)) ∧
      lost.getD i 0 ≤ xs.getD i 0) ∧
    (∀ i j, i < rest.length → j < rest.length → lost.getD i 0 = d * xs.getD i 0 / total + 1 →
      lost.getD j 0 = d * xs.getD j 0 / total →
      q.getD j 0 < q.getD i 0 ∨ (q.getD j 0 = q.getD i 0 ∧ i < j))

/-- R97 to R101: whatever the lag, the order computed for a site whose entry meets its floor keeps every split at or above its
floor minimum and its length within the floor's limits, and its splits sum to its length. -/
def Obligations.EveryOrderKeepsTheFloor : Prop :=
  ∀ (t : SiteTarget) (f : FloorValues) (zp : Count) (held blocking : Bool), MeetsFloor t f →
    OrderKeepsFloor (decideOrder (.coordinated t) zp held blocking) f ∧
    (decideOrder (.coordinated t) zp held blocking).kind ≠ .free

/-- R95 to R98: which kind of order is computed, from the first case that applies, and the limits of one cycle's correction:
those of R97 from the target and the site's floor, by the mode in use. Where the applying target is FREE the order is FREE with
correction 0 and no length or splits; a NOMINAL order has length C and the target's splits, with correction 0. -/
def Obligations.OrderKindFollowsNeedsAndLimits : Prop :=
  (∀ (t : SiteTarget) (f : FloorValues) (mode : CorrMode) (x : Nat), t.floor = some f →
    t.splits.length = f.minimums.length → mode = (match t.modeOverride with | some m => m | none => t.mode) →
    x = sumOf ((List.range (t.splits.length - 1)).map (fun i => t.splits.getD (i + 1) 0 - f.minimums.getD (i + 1) 0)) →
    (mode = .lengthen → smaxOf t = 0) ∧
    (mode ≠ .lengthen → smaxOf t = min (t.cycle * t.shorten / 100) (min x (t.cycle - f.minCycle))) ∧
    (mode = .shorten → lmaxOf t = 0) ∧
    (mode ≠ .shorten → lmaxOf t = min (t.cycle * t.lengthen / 100) (f.maxCycle - t.cycle))) ∧
  (∀ (zp : Count) (held blocking : Bool) (d : Decision), d = decideOrder .free zp held blocking →
    d.kind = .free ∧ d.correction = 0 ∧ d.length = none ∧ d.splits = []) ∧
  ∀ (t : SiteTarget) (zp : Count) (held blocking : Bool) (d : Decision) (lag a b : Nat), 0 < t.cycle →
    (lag : Int) = (sdiff zp t.epoch - t.offset) % (t.cycle : Int) → a = lag →
    b = (if lag = 0 then 0 else t.cycle - lag) → d = decideOrder (.coordinated t) zp held blocking →
    (d.kind = .nominal → d.length = some t.cycle ∧ d.splits = t.splits ∧ d.correction = 0) ∧
    (blocking = true → d.kind = .nominal ∧ d.reason = .disturbed) ∧
    (blocking = false → held = true → d.kind = .nominal ∧ d.reason = .held) ∧
    (blocking = false → held = false →
      (min a b ≤ 1 → d.kind = .nominal ∧ d.reason = .nominalLag) ∧
      (1 < min a b →
        (smaxOf t = 0 → lmaxOf t = 0 → d.kind = .nominal ∧ d.reason = .blocked) ∧
        (smaxOf t ≠ 0 → lmaxOf t = 0 → d.kind = .shortened ∧ d.correction = min a (smaxOf t)) ∧
        (smaxOf t = 0 → lmaxOf t ≠ 0 → d.kind = .lengthened ∧ d.correction = min b (lmaxOf t)) ∧
        (smaxOf t ≠ 0 → lmaxOf t ≠ 0 →
          ((a + smaxOf t - 1) / smaxOf t < (b + lmaxOf t - 1) / lmaxOf t →
            d.kind = .shortened ∧ d.correction = min a (smaxOf t)) ∧
          ((b + lmaxOf t - 1) / lmaxOf t ≤ (a + smaxOf t - 1) / smaxOf t →
            d.kind = .lengthened ∧ d.correction = min b (lmaxOf t)))))

/-- R103 and R104, for one member. A coordinated member whose order is not acknowledged has it computed afresh on the basis
of the newest order in its ring, against the target in force at that basis; where the newest order has no basis, or no order
waits, or the member is not coordinated, nothing is recomputed. A blocked seek marks the target, and raises SEEK-BLOCKED where it was
not marked before (R102). At a switch taken a FREE member whose new current target is a slot is ACQUIRING without anchor, and
a coordinated member whose new current target is FREE is FREE, with a FREEING order unless the newest order of its ring is
FREE already; GROUP-SETTLED where that settles the group (R79) and SITE-STATE with cause
TARGET (R110) are raised, in this order (assumption log 37). That a FREEING order keeps the seek-blocked mark is the model's
choice (assumption log 16). -/
def Obligations.TargetChangesRecomputeAndFree : Prop :=
  ∀ (n : Nat) (s : State),
    ((s.tracker n).state.isCoordinated = false ∨ (s.linkOf n).pendingOrder = none ∨
        (∀ o, (s.tracker n).ring.getLast? = some o → o.basis = none) → recompute n s = s) ∧
    (∀ o b u, (s.tracker n).state.isCoordinated = true → (s.linkOf n).pendingOrder ≠ none →
      (s.tracker n).ring.getLast? = some o → o.basis = some b → u = recompute n s →
      ∃ x : Order, (u.linkOf n).pendingOrder = some x ∧ (u.tracker n).ring.getLast? = some x ∧
        RecomputedOrder s n b x ∧ (u.tracker n).nextSequence = (s.tracker n).nextSequence + 1 ∧
        (u.tracker n).state = (s.tracker n).state ∧ (u.tracker n).lastZero = (s.tracker n).lastZero ∧
        (∀ k, k ≠ n → u.tracker k = s.tracker k ∧ u.linkOf k = s.linkOf k) ∧ u.groups = s.groups ∧
        u.library = s.library ∧ u.retained = s.retained ∧ u.monitor = s.monitor ∧
        (x.kind ≠ .nominal → u.link = s.link) ∧
        (∀ t f d (lag need : Nat), targetInForce s n b.zp = .coordinated t → t.floor = some f →
          d = decideOrder (.coordinated t) b.zp (s.held n) ((s.tracker n).lastReport.any (·.blocking)) →
          (lag : Int) = (sdiff b.zp t.epoch - t.offset) % (t.cycle : Int) →
          need = (if lag = 0 then 0 else t.cycle - lag) →
          (d.reason ≠ .blocked → u.link = s.link) ∧
          (d.reason = .blocked → (u.tracker n).seekBlocked = some t.id ∧
            ((s.tracker n).seekBlocked = some t.id → u.link = s.link) ∧
            ((s.tracker n).seekBlocked ≠ some t.id → Notices s u [(.seekBlocked,
              [.site n, .byte (s.groupOf n), .byte t.id.slot, .byte t.plan, .length lag, .length lag, .length need,
               .code (match t.modeOverride with | some m => m.code | none => t.mode.code), .byte t.shorten,
               .byte t.lengthen, .length (sumOf (List.zipWith (· - ·) t.splits.tail f.minimums.tail)),
               .signed (t.cycle - f.minCycle), .signed (f.maxCycle - t.cycle)])])))) ∧
    (∀ u, u = evaluateTarget n s →
      ((s.tracker n).state = .free → (currentTarget s n).isFree = false →
        u.tracker n = { s.tracker n with state := .acquiring, anchor := false } ∧ u.links = s.links ∧
        Notices s u (stateNotices s n .acquiring .target)) ∧
      ((s.tracker n).state.isCoordinated = true → (currentTarget s n).isFree = true →
        (u.tracker n).state = .free ∧ (u.tracker n).seekBlocked = (s.tracker n).seekBlocked ∧
        Notices s u (stateNotices s n .free .target) ∧
        (∀ o, (s.tracker n).ring.getLast? = some o → o.kind = .free →
          u.tracker n = { s.tracker n with state := .free } ∧ u.links = s.links) ∧
        ((∀ o, (s.tracker n).ring.getLast? = some o → o.kind ≠ .free) →
          ∃ x : Order, (u.linkOf n).pendingOrder = some x ∧ (u.tracker n).ring.getLast? = some x ∧
            x = { sequence := (s.tracker n).nextSequence, kind := .free, length := none, splits := [], correction := 0,
                  target := none, basis := none, cause := .freeing })) ∧
      ((s.tracker n).state = .offline ∨ ((s.tracker n).state = .free ∧ (currentTarget s n).isFree = true) ∨
          ((s.tracker n).state.isCoordinated = true ∧ (currentTarget s n).isFree = false) → u = s) ∧
      (∀ k, k ≠ n → u.tracker k = s.tracker k ∧ u.linkOf k = s.linkOf k))

/-! ### Reports at the STU, the CM and the FU -/

/-- STU_REPORT (R89, R90, R93, R94, R104) where no new zero is handed on. Of a site that is FREE, or coordinated and anchored
with no new zero and no blocking flag: the report is kept, and in FREE its zero too. Of a coordinated site, with a blocking
flag and no new zero: ACQUIRING without anchor. Of an ACQUIRING site without anchor, without a blocking flag, and of an OFFLINE
site: a first report, at the reference length. An OFFLINE site becomes FREE, with a FREEING order unless the newest order of
its ring is FREE (assumption log 16), or ACQUIRING with its anchor when the report carries no blocking flag. A change of state
raises SITE-STATE with cause REPORT or FLAG (R110), after a GROUP-SETTLED that it brings (R79; assumption log 37), and the
order computed may raise SEEK-BLOCKED (R102) after it. With no report waiting, nothing happens (assumption log 4). -/
def Obligations.StuReportIsKeptAndBringsOnline : Prop :=
  (∀ (n : Nat) (judgeFirst : Bool) (s : State), takeReport n s.handed.stu = none →
    exec (.stuReport n judgeFirst) s = .next (pump s)) ∧
  (∀ (n : Nat) (judgeFirst : Bool) (s u : State) (e : StuReport) (r : Report) (rest : List (Nat × StuReport)),
      takeReport n s.handed.stu = some (e, rest) → r = e.report → u = { s with handed := { s.handed with stu := rest } } →
      ((s.tracker n).state = .free → (s.tracker n).baseline ≠ some r.cycleCounter →
        exec (.stuReport n judgeFirst) s = .next (pump (u.setTracker n { s.tracker n with
          lastReport := some r.asLast
          lastZero := some (r.captured - BitVec.ofNat 32 r.elapsed)
          baseline := some r.cycleCounter
          stateAtZero := some .free
          runningAtZero := r.running }))) ∧
      ((s.tracker n).baseline = some r.cycleCounter →
        ((s.tracker n).state = .free ∨
          (r.flags &&& 7 = 0 ∧ ((s.tracker n).state = .seeking ∨ (s.tracker n).state = .inStep ∨
            ((s.tracker n).state = .acquiring ∧ (s.tracker n).anchor = true)))) →
        exec (.stuReport n judgeFirst) s
          = .next (pump (u.setTracker n { s.tracker n with lastReport := some r.asLast }))) ∧
      ((s.tracker n).baseline = some r.cycleCounter → r.flags &&& 7 ≠ 0 → (s.tracker n).state.isCoordinated = true →
        ∃ t : State, exec (.stuReport n judgeFirst) s = .next (pump t) ∧
          t.tracker n = { s.tracker n with lastReport := some r.asLast, state := .acquiring, anchor := false } ∧
          Notices s t (stateNotices s n .acquiring .flag) ∧
          (∀ k, k ≠ n → t.tracker k = s.tracker k) ∧ t.links = s.links ∧ t.monitor = s.monitor ∧
          t.handed = u.handed ∧ t.retained = s.retained ∧ t.time = s.time ∧ t.library = s.library)) ∧
  (∀ (n : Nat) (judgeFirst : Bool) (s : State) (e : StuReport) (r : Report) (rest : List (Nat × StuReport)) (z : Count),
      takeReport n s.handed.stu = some (e, rest) → r = e.report → z = r.captured - BitVec.ofNat 32 r.elapsed →
      (s.tracker n).state = .offline ∨
        ((s.tracker n).state = .acquiring ∧ (s.tracker n).anchor = false ∧ r.flags &&& 7 = 0) →
      ∃ u : State, exec (.stuReport n judgeFirst) s = .next (pump u) ∧
        (u.tracker n).lastZero = some z ∧ (u.tracker n).stateAtZero = some (u.tracker n).state ∧
        (u.tracker n).runningAtZero = r.running ∧
        (u.tracker n).baseline = some r.cycleCounter ∧ (u.tracker n).lastReport = some r.asLast ∧
        ((s.tracker n).state = .offline → (currentTarget s n).isFree = true →
          (u.tracker n).state = .free ∧ FreeingIssued s u n) ∧
        ((s.tracker n).state = .acquiring ∨ (currentTarget s n).isFree = false → (u.tracker n).state = .acquiring ∧
          (u.tracker n).anchor = decide (r.flags &&& 7 = 0) ∧
          ∃ o, (u.linkOf n).pendingOrder = some o ∧ (u.tracker n).ring.getLast? = some o ∧ o.cause = .first ∧
            o.sequence = (s.tracker n).nextSequence ∧
            (∀ k, ReferenceLength s n z k → o.basis = some { zk := z, lk := k, zp := z + BitVec.ofNat 32 k } ∧
              OrderHolds o (decideOrder (targetInForce s n (z + BitVec.ofNat 32 k)) (z + BitVec.ofNat 32 k) (s.held n)
                (decide (r.flags &&& 7 ≠ 0))))) ∧
        (∃ more, Notices s u (stateNotices s n (u.tracker n).state .report ++ more) ∧
          OfKinds [.seekBlocked] more ∧ ((u.tracker n).state = .free → more = [])) ∧
        u.handed = { s.handed with stu := rest } ∧ u.time = s.time ∧ u.roster = s.roster ∧ u.lines = s.lines ∧
        u.monitor = s.monitor ∧ u.retained = s.retained ∧ u.library = s.library ∧ u.floors = s.floors ∧
        (∀ k, k ≠ n → u.tracker k = s.tracker k ∧ u.linkOf k = s.linkOf k))

/-- STU_REPORT that shows a new zero of a coordinated site (R89, R91 to R94, R101, R109, R114, R115). Without a blocking flag
the site is classified by its observed lag against the target in force at the zero, and an IN-STEP one is marked as observed in
its group (R79); where that target is FREE its state and its stored lag stand (R91 step 2). With a blocking flag it is
ACQUIRING without anchor, its stored lag stands, and the CM is given the lag at the zero (assumption log 32), or none where the
target is FREE. In each case the zero is stored and handed to the CM with the last disturbance count as its report leaves it
(assumption log 31), the CM takes the report with it, and an order joins the ring and fills the pending-order slot, on the
length of the order that the report names as running or else the reference length; its computation is kept (R101), and both go
with the zero. The zero is judged after the computation, or before it and after the site's zeros that still wait (assumption
log 13). A site that a blocking flag takes from SEEKING or IN-STEP raises SITE-STATE (R110), and one observed IN-STEP raises
GROUP-SETTLED where that settles its group (R79); the notices of the order and of the judgement come after it. -/
def Obligations.NewZeroIsClassifiedAndOrdered : Prop :=
  ∀ (n : Nat) (blocking judgeFirst : Bool) (s : State) (e : StuReport) (r : Report)
    (rest : List (Nat × StuReport)) (z : Count),
    takeReport n s.handed.stu = some (e, rest) → r = e.report → blocking = decide (r.flags &&& 7 ≠ 0) →
    ((s.tracker n).state = .seeking ∨ (s.tracker n).state = .inStep ∨
      ((s.tracker n).state = .acquiring ∧ (blocking = true ∨ (s.tracker n).anchor = true))) →
    (s.tracker n).baseline ≠ some r.cycleCounter → z = r.captured - BitVec.ofNat 32 r.elapsed →
    ∃ (u : State) (o : Order) (l : Nat) (h : HandedZero) (d : Decision) (c : Computation),
      exec (.stuReport n judgeFirst) s = .next (pump u) ∧
      (∀ (t : SiteTarget) (lag : Nat), targetInForce s n z = .coordinated t → 0 < t.cycle →
        (lag : Int) = (sdiff z t.epoch - t.offset) % (t.cycle : Int) →
        h.lagObserved = some lag ∧
        (blocking = false → (u.tracker n).lagObserved = some lag ∧
          (u.tracker n).state = if min lag (t.cycle - lag) ≤ t.window then .inStep else .seeking)) ∧
      (targetInForce s n z = .free → h.lagObserved = none ∧
        (blocking = false → (u.tracker n).lagObserved = (s.tracker n).lagObserved ∧
          (u.tracker n).state = (s.tracker n).state)) ∧
      (blocking = true → (u.tracker n).state = .acquiring ∧ (u.tracker n).lagObserved = (s.tracker n).lagObserved) ∧
      (u.tracker n).anchor = (if blocking then false else (s.tracker n).anchor) ∧
      (u.tracker n).lastZero = some z ∧ (u.tracker n).baseline = some r.cycleCounter ∧
      (u.tracker n).stateAtZero = some (u.tracker n).state ∧ (u.tracker n).runningAtZero = r.running ∧
      (u.tracker n).lastReport = some r.asLast ∧
      (blocking = false → targetInForce s n z ≠ .free → (u.tracker n).state = .inStep → s.groupOf n ≠ 0 →
        (∃ i, (s.group (s.groupOf n)).lastSwitch = some i ∧ 0 ≤ sdiff z i) →
        n ∈ (u.group (s.groupOf n)).observed) ∧
      (∃ g first more, g = s.groupOf n ∧ Notices s u (first ++ more) ∧
        OfKinds [.seekBlocked, .groupSettled, .siteHeld, .watch] more ∧
        (blocking = true → first = stateNotices s n .acquiring .flag) ∧
        (blocking = false →
          (targetInForce s n z ≠ .free → (u.tracker n).state = .inStep → g ≠ 0 → n ∉ (s.group g).observed →
            (∃ i, (s.group g).lastSwitch = some i ∧ 0 ≤ sdiff z i) →
            first = settledNotices (s.setGroup g { s.group g with observed := n :: (s.group g).observed }) g) ∧
          (targetInForce s n z = .free ∨ (u.tracker n).state ≠ .inStep ∨ g = 0 ∨ n ∈ (s.group g).observed ∨
            (∀ i, (s.group g).lastSwitch = some i → sdiff z i < 0) → first = []))) ∧
      (∀ x, (s.tracker n).ring.find? (fun y => decide (some y.sequence = r.running)) = some x →
        ∀ k, x.length = some k → l = k) ∧
      ((∀ x, (s.tracker n).ring.find? (fun y => decide (some y.sequence = r.running)) = some x → x.length = none) →
        ∀ k, ReferenceLength s n z k → l = k) ∧
      o.basis = some { zk := z, lk := l, zp := z + BitVec.ofNat 32 l } ∧ o.cause = .zero ∧
      o.sequence = (s.tracker n).nextSequence ∧ (u.tracker n).nextSequence = (s.tracker n).nextSequence + 1 ∧
      d = decideOrder (targetInForce s n (z + BitVec.ofNat 32 l)) (z + BitVec.ofNat 32 l) (u.held n) blocking ∧
      OrderHolds o d ∧ (u.tracker n).computation = some c ∧
      c = { lagObserved := h.lagObserved, needs := d.needs, limits := d.limits, kind := d.kind, correction := d.correction
            reason := d.reason } ∧
      (u.tracker n).ring.getLast? = some o ∧ u.linkOf n = { s.linkOf n with pendingOrder := some o } ∧
      h.site = n ∧ h.zero = z ∧ h.before = (s.tracker n).lastZero ∧
      h.delta = (s.tracker n).baseline.map (fun b => (r.cycleCounter - b).toNat) ∧
      h.ran = ((s.tracker n).ring.find? (fun y => decide (some y.sequence = (s.tracker n).runningAtZero))).filter
        (fun y => decide (y.kind ≠ .free)) ∧
      h.startState = (s.tracker n).stateAtZero ∧ h.blocking = blocking ∧ h.disturbance = e.disturbance ∧
      h.stateAfter = (u.tracker n).state ∧ h.issued = some (o, c) ∧ h.watched = decide (s.monitor.watched = n) ∧
      (judgeFirst = false → u.monitor.zeros = s.monitor.zeros ++ [h] ∧ u.retained = s.retained) ∧
      (judgeFirst = true → u.monitor.zeros = s.monitor.zeros.filter (fun y => decide (y.site ≠ n)) ∧
        ((∀ y ∈ s.monitor.zeros, y.site ≠ n) →
          (u.monitorOf n).deviations = ((s.monitorOf n).after (verdictOf s.monitor.tolerance h)).deviations ∧
          (u.monitorOf n).sign = ((s.monitorOf n).after (verdictOf s.monitor.tolerance h)).sign)) ∧
      u.handed.stu = rest ∧ u.handed.fu = s.handed.fu ∧
      reportsOf n u.handed.cm
        = (reportsOf n s.handed.cm).drop ((reportsOf n s.handed.cm).length - (reportsOf n rest).length) ∧
      u.time = s.time ∧ u.roster = s.roster ∧ u.lines = s.lines ∧ u.library = s.library ∧ u.resolver = s.resolver ∧
      u.floors = s.floors ∧ u.retained.resume = s.retained.resume ∧
      (∀ k, k ≠ n → u.tracker k = s.tracker k ∧ u.linkOf k = s.linkOf k ∧ u.held k = s.held k ∧
        reportsOf k u.handed.cm = reportsOf k s.handed.cm)

/-- CM_REPORT (R114) and FU_REPORT (R168, R173): a blocking flag marks a disturbance; a flag that the site's set does not
hold is added, ATTN follows, and FLAGS-RAISED is raised. With no report waiting, nothing happens (assumption log 4). -/
def Obligations.ReportFlagsDisturbAndLatch : Prop :=
  ∀ (n : Nat) (s : State),
    (takeReport n s.handed.cm = none → exec (.cmReport n) s = .next (pump s)) ∧
    (takeReport n s.handed.fu = none → exec (.fuReport n) s = .next (pump s)) ∧
    (∀ r rest u, takeReport n s.handed.cm = some (r, rest) → u = { s with handed := { s.handed with cm := rest } } →
      (r.flags &&& 7 ≠ 0 → exec (.cmReport n) s = .next (pump
        (u.setMonitor n { s.monitorOf n with lastDisturbance := some r.captured }))) ∧
      (r.flags &&& 7 = 0 → exec (.cmReport n) s = .next (pump u))) ∧
    (∀ r rest u added, takeReport n s.handed.fu = some (r, rest) →
      u = { s with handed := { s.handed with fu := rest } } → added = r.flags &&& ~~~(s.raisedFlags n) →
      (added = 0 → exec (.fuReport n) s = .next (pump u)) ∧
      (added ≠ 0 → ∀ v : State, v = recomputeAttn (u.setRaisedFlags n (s.raisedFlags n ||| added)) →
        exec (.fuReport n) s = .next (pump (raise .flagsRaised
          [.site n, .byte (((s.rosterEntry n).map (·.line)).getD 0), .byte (s.groupOf n), .flags added,
           .flags (s.raisedFlags n ||| added), .flags r.flags, .count r.captured, .mark v.flags.attn] v)) ∧
        (v.flags.attn = true ↔ ∃ k b, (k, b) ∈ v.flags.raised ∧ b &&& s.flags.mask ≠ 0)))

/-- ZERO_JUDGEMENT (R114, R116 to R119, R125, R126): an excluded cycle leaves the monitor record as it was, one during or after
whose start its site was disturbed among them (the disturbance count goes with the zero: assumption log 31); a deviation within
the tolerance clears it; a larger one counts up to 127, and at the hold limit of Table 6-2 sets a clear hold mark and raises
SITE-HELD (R119), after a GROUP-SETTLED that the hold brings (R120, R79). A zero whose site was watched at its hand-over and
still is raises WATCH after that (assumption log 25, 37), with every field of Table 6-3: the zero, lag, state, computation and
order as handed over, both lengths wherever they exist (assumption log 47), the reason of an order that is not NOMINAL as none
(assumption log 40), the verdict, and the record as the judgement leaves it. The hold limit in SITE-HELD and Δ in WATCH are one
byte wide (assumption log 17). With no zero waiting, nothing happens (assumption log 4). -/
def Obligations.CompletedCycleIsJudged : Prop :=
  (List.range 8).map holdLimit = [1, 2, 3, 4, 8, 16, 32, 64] ∧
  ∀ (n : Nat) (s : State), TablesCanonical s →
    (takeZero n s.monitor.zeros = none → exec (.zeroJudgement n) s = .next (pump s)) ∧
    (∀ z rest u, takeZero n s.monitor.zeros = some (z, rest) →
      u = { s with monitor := { s.monitor with zeros := rest } } →
      (z.before = none ∨ z.delta = none ∨ (∃ d, z.delta = some d ∧ 2 ≤ d) ∨
        (∀ st, z.startState = some st → st.isCoordinated = false) ∨ (∀ o, z.ran = some o → o.length = none) ∨
        z.blocking = true ∨
        (∃ b t, z.before = some b ∧ z.disturbance = some t ∧ 0 ≤ sdiff t b) →
        ∃ verdict y, verdict = (if z.before = none then 2 else if (∀ d, z.delta = some d → 2 ≤ d) then 3
            else if (∀ st, z.startState = some st → st.isCoordinated = false) then 4
            else if (∀ o, z.ran = some o → o.length = none) then 5 else 6) ∧
          WatchRaised z verdict u y ∧ exec (.zeroJudgement n) s = .next (pump y)) ∧
      (∀ b d st o l (deviation : Int), z.before = some b → z.delta = some d → d < 2 → z.startState = some st →
        st.isCoordinated = true → z.ran = some o → o.length = some l → z.blocking = false →
        (∀ t, z.disturbance = some t → sdiff t b < 0) → deviation = sdiff z.zero b - l →
        (deviation.natAbs ≤ s.monitor.tolerance →
          ∃ y, WatchRaised z 0 (u.setMonitor n { s.monitorOf n with deviations := 0, sign := none }) y ∧
            exec (.zeroJudgement n) s = .next (pump y)) ∧
        (∀ m, s.monitor.tolerance < deviation.natAbs →
          m = { s.monitorOf n with deviations := min 127 ((s.monitorOf n).deviations + 1)
                                   sign := some (if 0 < deviation then .long else .short) } →
          (m.deviations < holdLimit s.monitor.limitCode ∨ s.held n = true →
            ∃ y, WatchRaised z 1 (u.setMonitor n m) y ∧ exec (.zeroJudgement n) s = .next (pump y)) ∧
          (holdLimit s.monitor.limitCode ≤ m.deviations → s.held n = false →
            ∃ t y : State, WatchRaised z 1 t y ∧ exec (.zeroJudgement n) s = .next (pump y) ∧ t.held n = true ∧
              Notices s t (holdNotices s n true ++ [(.siteHeld,
                [.site n, .byte (s.groupOf n), .count z.zero, .count s.time.count, .byte m.deviations,
                 .byte (holdLimit s.monitor.limitCode), .code (if 0 < deviation then 0 else 1),
                 .signed (sdiff z.zero b), .length l, .length s.monitor.tolerance, .byte o.sequence.toNat,
                 .code o.kind.code])]) ∧
              (∀ k, k ≠ n → t.held k = s.held k) ∧ t.monitor = (u.setMonitor n m).monitor ∧
              t.trackers = s.trackers ∧ t.roster = s.roster ∧ t.links = s.links ∧ t.library = s.library ∧
              t.time = s.time ∧ t.handed = s.handed ∧ t.flags = s.flags))))

/-- RELEASE-HOLD (R121, R106, R120) of one held site and of all; SET-MONITOR with the read mark clear (R123); WATCH (R125). A
site released raises GROUP-SETTLED where it settles its group (R79), whose settle judgement is then no longer pending, and
SITE-STATE with cause HOLD-RELEASED where it enters ACQUIRING (R110). For site 0 the held sites are so released one after
another, in rising site number (the model's choice, assumption log 46). The widths of the numbers of sites released and held
and of the hold limit in the replies are the model's choice (assumption log 17), as is the order of those two notices
(assumption log 37). By which byte a refusal names a setting is a free value (assumption log 2). -/
def Obligations.MonitorRequestsSetTheirRecords : Prop :=
  ∀ (tag : Byte) (s : State), Ready s →
    (∀ n, 384 < n → exec (.releaseHold tag n) s = answered Kind.releaseHold tag .outOfRange [] s) ∧
    (∀ n, 1 ≤ n → n ≤ 384 →
      (s.rosterEntry n = none → exec (.releaseHold tag n) s = answered Kind.releaseHold tag .notFound [] s) ∧
      (s.rosterEntry n ≠ none → s.held n = false →
        exec (.releaseHold tag n) s = answered Kind.releaseHold tag .wrongState [] s) ∧
      (s.rosterEntry n ≠ none → s.held n = true → ∃ t : State,
        exec (.releaseHold tag n) s = answered Kind.releaseHold tag .ok [.total 1, .count s.time.count] t ∧
        SiteReleased s t n)) ∧
    (∃ t : State, exec (.releaseHold tag 0) s
        = answered Kind.releaseHold tag .ok [.total (heldSites s).length, .count s.time.count] t ∧
      (∀ k, t.held k = false) ∧ t.links = s.links ∧ t.roster = s.roster ∧ t.time = s.time ∧
      (TablesCanonical s → (heldSites s).Pairwise (· < ·) ∧ (∀ k, k ∈ heldSites s ↔ s.held k = true) ∧
        SitesReleased (heldSites s) s t ∧ ∀ k,
        (s.held k = true →
          t.monitorOf k = { s.monitorOf k with deviations := 0, sign := none } ∧
          ((s.tracker k).state.isCoordinated = true →
            t.tracker k = { s.tracker k with state := .acquiring, anchor := false }) ∧
          ((s.tracker k).state.isCoordinated = false → t.tracker k = s.tracker k)) ∧
        (s.held k = false → t.monitorOf k = s.monitorOf k ∧ t.tracker k = s.tracker k))) ∧
    (∀ tolerance code,
      (tolerance = 0 ∨ 50 < tolerance →
        exec (.setMonitor tag 0 tolerance code) s = answered Kind.setMonitor tag .outOfRange [.named 0] s) ∧
      (1 ≤ tolerance → tolerance ≤ 50 → 7 < code →
        exec (.setMonitor tag 0 tolerance code) s = answered Kind.setMonitor tag .outOfRange [.named 1] s) ∧
      (1 ≤ tolerance → tolerance ≤ 50 → code ≤ 7 →
        (s.storing = true → exec (.setMonitor tag 0 tolerance code) s = answered Kind.setMonitor tag .busy [] s) ∧
        (s.storing = false →
          exec (.setMonitor tag 0 tolerance code) s = answered Kind.setMonitor tag .ok
            [.length s.monitor.tolerance, .code s.monitor.limitCode, .length tolerance, .code code,
             .byte (holdLimit code), .total (heldSites s).length]
            { s with monitor := { s.monitor with tolerance := tolerance, limitCode := code } }))) ∧
    (∀ n,
      (384 < n → exec (.watch tag n) s = answered Kind.watch tag .outOfRange [] s) ∧
      (1 ≤ n → n ≤ 384 → s.rosterEntry n = none →
        exec (.watch tag n) s = answered Kind.watch tag .notFound [] s) ∧
      (n = 0 ∨ (n ≤ 384 ∧ s.rosterEntry n ≠ none) →
        exec (.watch tag n) s = answered Kind.watch tag .ok [.site s.monitor.watched]
          { s with monitor := { s.monitor with watched := n } }))

/-! ### Site flags -/

/-- CLEAR-FLAGS (R170, R173), SET-FLAG-MASK with the read mark clear (R172) and SIGNAL-SITE (R174). The widths of the numbers of
flags removed and of sites counted, and the presence bytes of the sets of a single site, are the model's choice (assumption
log 17). By which byte a refusal names a field is a free value (assumption log 2). -/
def Obligations.FlagRequestsChangeSetsAndMask : Prop :=
  ∀ (tag : Byte) (s : State), Ready s →
    (∀ n flags, (384 < n → exec (.clearFlags tag n flags) s
        = answered Kind.clearFlags tag .outOfRange [.named 0] s) ∧
      (n ≤ 384 → flags = 0 → exec (.clearFlags tag n flags) s
        = answered Kind.clearFlags tag .outOfRange [.named 1] s) ∧
      (1 ≤ n → n ≤ 384 → flags ≠ 0 → s.rosterEntry n = none →
        exec (.clearFlags tag n flags) s = answered Kind.clearFlags tag .notFound [] s) ∧
      (1 ≤ n → n ≤ 384 → flags ≠ 0 → s.rosterEntry n ≠ none →
        ∀ t : State, t = recomputeAttn (s.setRaisedFlags n (s.raisedFlags n &&& ~~~flags)) →
        exec (.clearFlags tag n flags) s = answered Kind.clearFlags tag .ok
          ([.total ((List.range 8).filter (fun i => (s.raisedFlags n &&& flags).getLsbD i)).length, .mark t.flags.attn] ++
            withPresence [surely (.flags (s.raisedFlags n)), surely (.flags (s.raisedFlags n &&& ~~~flags))]) t) ∧
      (n = 0 → flags ≠ 0 → ∃ (t : State) (removed : Nat),
        exec (.clearFlags tag n flags) s = answered Kind.clearFlags tag .ok
          ([.total removed, .mark t.flags.attn] ++
            withPresence [maybe (none : Option Byte) 0 .flags, maybe (none : Option Byte) 0 .flags]) t ∧
        (TablesCanonical s → removed = sumOf (s.flags.raised.map (fun e =>
          ((List.range 8).filter (fun i => (e.2 &&& flags).getLsbD i)).length))) ∧
        (∀ k, t.raisedFlags k = s.raisedFlags k &&& ~~~flags) ∧
        t = { s with flags := { s.flags with raised := t.flags.raised, attn := t.flags.attn } } ∧
        (t.flags.attn = true ↔ ∃ k b, (k, b) ∈ t.flags.raised ∧ b &&& s.flags.mask ≠ 0))) ∧
    (∀ mask,
      (s.storing = true → exec (.setFlagMask tag 0 mask) s = answered Kind.setFlagMask tag .busy [] s) ∧
      (s.storing = false → ∀ v : State, v = recomputeAttn { s with flags := { s.flags with mask := mask } } →
        exec (.setFlagMask tag 0 mask) s = answered Kind.setFlagMask tag .ok
          [.flags s.flags.mask, .flags mask, .mark v.flags.attn, .total (sitesCounted v.flags)] v)) ∧
    (∀ n flags, (n = 0 ∨ 384 < n → exec (.signalSite tag n flags) s
        = answered Kind.signalSite tag .outOfRange [.named 0] s) ∧
      (1 ≤ n → n ≤ 384 → flags = 0 → exec (.signalSite tag n flags) s
        = answered Kind.signalSite tag .outOfRange [.named 1] s) ∧
      (1 ≤ n → n ≤ 384 → flags ≠ 0 →
        (s.rosterEntry n = none →
          exec (.signalSite tag n flags) s = answered Kind.signalSite tag .notFound [] s) ∧
        (∀ e, s.rosterEntry n = some e →
          exec (.signalSite tag n flags) s = answered Kind.signalSite tag .ok
            [.flags (s.linkOf n).relay, .flags ((s.linkOf n).relay ||| flags), .flags (s.linkOf n).relayInFlight,
             .mark (s.linkOf n).online, .code (s.line e.line).state.code]
            (s.setLinkOf n { s.linkOf n with relay := (s.linkOf n).relay ||| flags }))))

/-! ### The Floor Store -/

/-- FLOOR_PROGRAMMING_END (R133, R134) and LOCK_PROGRAMMING_END (R138): bits are only ever added; the entry is COMMITTED with
no fault only when its image then equals the values carried and the commit mark reads programmed at an attempt, and FAILED
otherwise where the failure mark takes; a commit mark that takes after its last attempt leaves the MARK-FAULT entry that reads
COMMITTED (assumption log 33); FLOOR-DONE is raised. The bits have landed by the end, or as far as a READ-FLOOR says with which
it comes, whose reply shows the entry so (assumption log 29); the marks and the lock mark land at the end (assumption log 29).
With no such operation under way, nothing ends (assumption log 4). -/
def Obligations.ProgrammingEndsInOneOutcome : Prop :=
  ∀ (deaf : Image) (commit : CommitReading) (failureTakes takes : Bool) (s : State),
    (∀ n v e image, s.floors.programmer = .floor n v → e = s.floorEntry n →
      image = e.image ||| (v.image &&& ~~~deaf) →
      ∃ (after : FloorEntry) (outcome : ProgramOutcome),
        exec (.floorProgrammingEnd deaf commit failureTakes) s = .next (pump (raise .floorDone
          [.site n, .code outcome.code, .code after.state.code, .image v.image, .image image,
           .mark s.floors.windowOpen]
          { s with floors := { s.floors with
              entries := Table.set FloorEntry.blank s.floors.entries n after, programmer := .idle } })) ∧
        after.image = image ∧
        (image = v.image → commit = .takes →
          after.commit = true ∧ after.failure = e.failure ∧ outcome = .committed) ∧
        (image = v.image → commit ≠ .takes →
          after.commit = (e.commit || decide (commit = .late)) ∧
          after.failure = (e.failure || failureTakes) ∧ outcome = .markFault) ∧
        (image ≠ v.image → after.commit = e.commit ∧ after.failure = (e.failure || failureTakes) ∧
          (failureTakes = false → outcome = .markFault) ∧
          (failureTakes = true →
            (image &&& ~~~v.image ≠ 0 → outcome = .conflict) ∧
            (image &&& ~~~v.image = 0 → outcome = .unprogrammed)))) ∧
    (s.floors.programmer = .lock →
      exec (.lockProgrammingEnd takes) s = .next (pump (raise .floorDone
        [.site 0, .code (if s.floors.lockMark = true ∨ takes = true then 4 else 3), .code 0, .image 0, .image 0,
         .mark s.floors.windowOpen]
        { s with floors := { s.floors with lockMark := s.floors.lockMark || takes, programmer := .idle } }))) ∧
    ((∀ n v, s.floors.programmer ≠ .floor n v) →
      exec (.floorProgrammingEnd deaf commit failureTakes) s = .next (pump s)) ∧
    (s.floors.programmer ≠ .lock → exec (.lockProgrammingEnd takes) s = .next (pump s)) ∧
    (∀ (tag : Byte) (seen : Seen) n v, Ready s → s.floors.programmer = .floor n v → 1 ≤ n → n ≤ 384 →
      ∃ (t : State) (fields : List Field), t = look seen s ∧
        t.floorEntry n = { s.floorEntry n with image := (s.floorEntry n).image ||| (v.image &&& seen.programmed) } ∧
        exec (.readFloor tag { site := n, seen := seen }) s
          = answered Kind.readFloor tag .ok (.code (t.floorEntry n).state.code :: .mark true :: fields) t ∧
        ((t.floorEntry n).image ≠ 0 → .image (t.floorEntry n).image ∈ fields))

/-- OPEN-COMMISSIONING, COMMISSION_EN_DEASSERT and WINDOW_EXPIRY (R139, R140, R141). That OPEN-COMMISSIONING carries the
level of COMMISSION_EN is the model's choice (assumption log 11), as are WINDOW_EXPIRY beside the tick (assumption log 9) and
the width of the window counts in the reply (assumption log 17). -/
def Obligations.WindowOpensByKeyAndCloses : Prop :=
  (∀ (tag : Byte) (s : State), Ready s →
    (s.floors.lockInEffect = true →
      exec (.openCommissioning tag true) s = answered Kind.openCommissioning tag .locked []
        { s with pins := { s.pins with commissionEn := true } }) ∧
    (s.floors.lockInEffect = false →
      exec (.openCommissioning tag true) s = answered Kind.openCommissioning tag .ok
        [.code (markCode s.floors.windowOpen), .length s.floors.windowCount, .length 3000]
        { s with pins := { s.pins with commissionEn := true }
                 floors := { s.floors with windowOpen := true, windowCount := 3000 } }) ∧
    exec (.openCommissioning tag false) s = answered Kind.openCommissioning tag
      (if s.floors.lockInEffect then .locked else .notCommissioning) []
      { s with pins := { s.pins with commissionEn := false }
               floors := { s.floors with windowOpen := false, windowCount := 0 } }) ∧
  (∀ s : State,
    exec .commissionEnDeassert s = .next (pump
      { s with pins := { s.pins with commissionEn := false }
               floors := { s.floors with windowOpen := false, windowCount := 0 } }) ∧
    (s.floors.windowOpen = true → s.floors.windowCount ≤ 1 →
      exec .windowExpiry s = .next (pump { s with floors := { s.floors with windowOpen := false, windowCount := 0 } })) ∧
    (s.floors.windowOpen = false ∨ 2 ≤ s.floors.windowCount → exec .windowExpiry s = .next (pump s)))

/-- COMMISSION-FLOOR (R131, R132) and LOCK-FLOORS (R137), in the order of their cases. The width of the entry counts in the
reply to LOCK-FLOORS is the model's choice (assumption log 17). By which byte a refusal names the field or the failing item is
a free value (assumption log 2). That LOCK-FLOORS is BUSY, and not WRONG-STATE, while the lock mark is being programmed is the
model's choice too (assumption log 29). -/
def Obligations.CommissioningIsGuarded : Prop :=
  ∀ (tag : Byte) (n k lo hi : Nat) (fs : List Nat) (s : State), Ready s →
    (s.floors.lockInEffect = true →
      exec (.commissionFloor tag n k lo hi fs) s = answered Kind.commissionFloor tag .locked [] s ∧
      exec (.lockFloors tag) s = answered Kind.lockFloors tag .locked [] s) ∧
    (s.floors.lockInEffect = false →
      (s.floors.windowOpen = false →
        exec (.commissionFloor tag n k lo hi fs) s = answered Kind.commissionFloor tag .notCommissioning [] s ∧
        exec (.lockFloors tag) s = answered Kind.lockFloors tag .notCommissioning [] s) ∧
      (s.floors.windowOpen = true →
        (n = 0 ∨ 384 < n →
          exec (.commissionFloor tag n k lo hi fs) s
            = answered Kind.commissionFloor tag .outOfRange [.named 0] s) ∧
        (1 ≤ n → n ≤ 384 → ∀ bad : List Bool,
          bad = [decide (k = 0 ∨ 8 < k), decide (fs.length ≠ k), fs.any (fun f => decide (f < 20 ∨ 1200 < f)),
                 decide (lo < 300 ∨ 2550 < lo), decide (hi < 300 ∨ 2550 < hi), decide (hi < lo),
                 decide (hi < sumOf fs)] →
          (∀ item, bad.findIdx? id = some item →
            exec (.commissionFloor tag n k lo hi fs) s
              = answered Kind.commissionFloor tag .outOfRange [.named (item + 1)] s) ∧
          (bad.findIdx? id = none →
            (s.floors.programmer ≠ .idle →
              exec (.commissionFloor tag n k lo hi fs) s = answered Kind.commissionFloor tag .busy [] s) ∧
            (s.floors.programmer = .idle →
              ((s.floorEntry n).commit = true ∨ (s.floorEntry n).failure = true →
                exec (.commissionFloor tag n k lo hi fs) s
                  = answered Kind.commissionFloor tag .wrongState [.code (s.floorEntry n).state.code] s) ∧
              ((s.floorEntry n).commit = false → (s.floorEntry n).failure = false →
                exec (.commissionFloor tag n k lo hi fs) s
                  = answered Kind.commissionFloor tag .ok [.site n, .code (s.floorEntry n).state.code]
                      (programming s (.floor n (FloorValues.mk k fs lo hi))))))) ∧
        (s.floors.lockMark = true →
          exec (.lockFloors tag) s = answered Kind.lockFloors tag .wrongState [] s) ∧
        (s.floors.lockMark = false →
          (s.floors.programmer ≠ .idle → exec (.lockFloors tag) s = answered Kind.lockFloors tag .busy [] s) ∧
          (s.floors.programmer = .idle →
            exec (.lockFloors tag) s = answered Kind.lockFloors tag .ok
              [.total (entriesIn s .blank), .total (entriesIn s .dirty), .total (entriesIn s .committed),
               .total (entriesIn s .failed)]
              (programming s .lock)))))

/-- R129, R130: no command ever returns a programmed bit of the one-time storage to its unprogrammed value. -/
def Obligations.OneTimeStorageIsNeverErased : Prop :=
  ∀ (c : Instr) (s t : State), exec c s = .next t → NothingErased s t

/-- R130, R132, R133: from a sound state, no command changes an entry that reads COMMITTED or FAILED. -/
def Obligations.CommittedFloorsNeverChange : Prop :=
  ∀ (c : Instr) (s t : State) (n : Nat), Sound s → exec c s = .next t →
    (s.floorEntry n).state = .committed ∨ (s.floorEntry n).state = .failed → t.floorEntry n = s.floorEntry n

/-! ### Roster and lines -/

/-- WRITE-SITE (R145, R146): the first case that applies refuses it; otherwise the entry is the one carried, and no other
site's entry changes. A new site has a fresh tracker. A site whose line or address changes starts over OFFLINE with its zero,
baseline, anchor and last outcome cleared and its ring, next sequence number and relay flags kept. A change of group clears the
previous target and the anchor: an OFFLINE site stays OFFLINE, another becomes ACQUIRING, or FREE with a FREEING order where it
was coordinated and its newest order is not FREE (R105; assumption log 16), and raises SITE-STATE with the new group
(assumption log 39) and cause ROSTER after any GROUP-SETTLED of the group left and the group joined (assumption log 37). The
poll lists follow (R153, R154): the site leaves its old line's list, an exchange with it in flight is void, a line that loses
its last entry ends its round (assumption log 30), and the line it comes onto keeps its round or begins one; both take the line
state of R163. A change of group alone makes an exchange with the site void. The reply shows the entry before and after; its
presence byte is the model's choice (assumption log 17), as are, where a move raises several notices, their order (assumption
log 46, 37). By which byte a refusal names a field is a free value (assumption log 2). -/
def Obligations.WriteSitePutsTheEntry : Prop :=
  ∀ (tag : Byte) (n l a g : Nat) (s : State), Ready s → TablesCanonical s →
    (∀ place, [decide (n = 0 ∨ 384 < n), decide (7 < l), decide (a = 0 ∨ 254 < a), decide (64 < g)].findIdx? id
        = some place →
      exec (.writeSite tag n l a g) s = answered Kind.writeSite tag .outOfRange [.named place] s) ∧
    (1 ≤ n → n ≤ 384 → l ≤ 7 → 1 ≤ a → a ≤ 254 → g ≤ 64 →
      (s.storing = true → exec (.writeSite tag n l a g) s = answered Kind.writeSite tag .busy [] s) ∧
      (s.storing = false →
        (∀ m e, m ≠ n → s.rosterEntry m = some e → e.line = l → e.address = a →
          (∀ k v, k ≠ n → s.rosterEntry k = some v → v.line = l → v.address = a → m ≤ k) →
          exec (.writeSite tag n l a g) s = answered Kind.writeSite tag .duplicate [.site m] s) ∧
        ((∀ m e, m ≠ n → s.rosterEntry m = some e → ¬ (e.line = l ∧ e.address = a)) →
          (48 ≤ ((s.sitesOn l).filter (· != n)).length →
            exec (.writeSite tag n l a g) s = answered Kind.writeSite tag .noSpace [.named 1] s) ∧
          (((s.sitesOn l).filter (· != n)).length < 48 →
            (g ≠ 0 → 48 ≤ ((s.membersOf g).filter (· != n)).length →
              exec (.writeSite tag n l a g) s = answered Kind.writeSite tag .noSpace [.named 3] s) ∧
            (g = 0 ∨ ((s.membersOf g).filter (· != n)).length < 48 →
              ∃ t : State,
                exec (.writeSite tag n l a g) s = answered Kind.writeSite tag .ok (.site n :: withPresence
                  [opt (match s.rosterEntry n with
                    | some e => (true, [.byte e.line, .byte e.address, .byte e.group])
                    | none => (false, [.byte 0, .byte 0, .byte 0])),
                   opt (always [.byte l, .byte a, .byte g])]) t ∧
                t.rosterEntry n = some { line := l, address := a, group := g } ∧
                (∀ k, k ≠ n → t.rosterEntry k = s.rosterEntry k) ∧
                (∀ k, k ≠ n → t.tracker k = s.tracker k ∧ t.linkOf k = s.linkOf k) ∧
                (s.rosterEntry n = none → t.linkOf n = LinkRecord.reset ∧ t.tracker n = Tracker.reset) ∧
                (∀ old, s.rosterEntry n = some old → old.line ≠ l ∨ old.address ≠ a →
                  t.tracker n = { s.tracker n with
                    state := .offline, anchor := false, lastZero := none, baseline := none
                    previous := if old.group = g then (s.tracker n).previous else none } ∧
                  t.linkOf n = { s.linkOf n with
                    online := false, misses := 0, pendingOrder := none, relayInFlight := 0, lastOutcome := none }) ∧
                (s.rosterEntry n = some { line := l, address := a, group := g } → t = s) ∧
                (s.rosterEntry n = none → JoinsLine s t l ∧ (t.line l).exchange = (s.line l).exchange ∧
                  HasLineState t l ∧ (∀ k, k ≠ l → t.line k = s.line k) ∧
                  Notices s t (lineNotices s t l (some n))) ∧
                (∀ old, s.rosterEntry n = some old → old.line ≠ l →
                  LeavesLine s t old.line n ∧ ((s.line old.line).round = none → (t.line old.line).round = none) ∧
                  JoinsLine s t l ∧ HasLineState t old.line ∧ HasLineState t l ∧
                  ((∀ x, (s.line l).exchange = some x → x.site = n → x.void = true) →
                    (t.line l).exchange = (s.line l).exchange) ∧
                  (∀ k, k ≠ l → k ≠ old.line → t.line k = s.line k) ∧
                  (old.group = g → Notices s t (stateNotices s n .offline .roster ++
                    lineNotices s t old.line (some n) ++ lineNotices s t l (some n)))) ∧
                (∀ old, s.rosterEntry n = some old → old.line = l → old.address ≠ a →
                  LeavesLine s t l n ∧ ((s.line l).round = none → JoinsLine s t l) ∧ HasLineState t l ∧
                  (∀ k, k ≠ l → t.line k = s.line k) ∧
                  (old.group = g → Notices s t (stateNotices s n .offline .roster ++ lineNotices s t l (some n)))) ∧
                (∀ old, s.rosterEntry n = some old → old.line = l → old.address = a → old.group ≠ g →
                  (∀ k, k ≠ l → t.line k = s.line k) ∧
                  t.line l = { s.line l with exchange := voidedFor n (s.line l).exchange } ∧
                  SiteRegrouped s t n old.group { line := l, address := a, group := g }) ∧
                t.time = s.time ∧ t.floors = s.floors ∧ t.store = s.store ∧ t.monitor = s.monitor ∧
                t.flags = s.flags ∧ t.retained.holds = s.retained.holds)))))

/-- REMOVE-SITE (R147, R122, R169, R173): entry, link, tracker, monitor record, hold mark and raised flags of the site are at
their after-reset values, and no other site's entry changes. The ATTN level is recomputed, and the reply carries it after the
entry removed (assumption log 49). Its line polls it no more (R153, R154): an exchange with it in flight is void, the round
goes on without it, a round that this leaves nothing to poll is followed by the next, and a line that loses its last entry ends
its round (assumption log 30); the line takes the state of R163. GROUP-SETTLED where its leaving settles the group (R79),
SITE-STATE with cause ROSTER where it was not OFFLINE (R110), with the group and hold mark as they stood before (assumption log
39), and LINE-STATE are raised in this order (assumption log 37, 46). -/
def Obligations.RemoveSiteForgetsTheSite : Prop :=
  ∀ (tag : Byte) (n : Nat) (s : State), Ready s →
    (n = 0 ∨ 384 < n → exec (.removeSite tag n) s = answered Kind.removeSite tag .outOfRange [] s) ∧
    (1 ≤ n → n ≤ 384 →
      (s.storing = true → exec (.removeSite tag n) s = answered Kind.removeSite tag .busy [] s) ∧
      (s.storing = false →
        (s.rosterEntry n = none → exec (.removeSite tag n) s = answered Kind.removeSite tag .notFound [] s) ∧
        (∀ e, s.rosterEntry n = some e → ∃ t : State,
          exec (.removeSite tag n) s
            = answered Kind.removeSite tag .ok [.byte e.line, .byte e.address, .byte e.group, .mark t.flags.attn] t ∧
          (TablesCanonical s → (t.flags.attn = true ↔ ∃ k, t.raisedFlags k &&& t.flags.mask ≠ 0)) ∧ t.flags.mask = s.flags.mask ∧
          t.rosterEntry n = none ∧ (∀ k, k ≠ n → t.rosterEntry k = s.rosterEntry k) ∧
          t.linkOf n = LinkRecord.reset ∧ t.tracker n = Tracker.reset ∧ t.monitorOf n = MonitorRecord.reset ∧
          t.held n = false ∧ t.raisedFlags n = 0 ∧ t.monitor.watched ≠ n ∧
          LeavesLine s t e.line n ∧ ((s.line e.line).round = none → (t.line e.line).round = none) ∧
          HasLineState t e.line ∧ (∀ k, k ≠ e.line → t.line k = s.line k) ∧
          Notices s t (
            (if e.group ≠ 0 ∧ 2 ≤ (s.group e.group).members then settledNotices (s.setRosterEntry n none) e.group
              else []) ++
            (if (s.tracker n).state = .offline then [] else
              [(.siteState, [.site n, .byte e.group, .code (s.tracker n).state.code, .code 0, .code 6,
                .count s.time.count, .mark (s.held n)])]) ++
            lineNotices s t e.line (some n)) ∧
          (∀ k, k ≠ n → t.held k = s.held k ∧ t.raisedFlags k = s.raisedFlags k) ∧
          t.time = s.time ∧ t.floors = s.floors ∧ t.store = s.store)))

/-- LINE-CONTROL with the read mark clear (R150, R151, R152): settings out of range are refused; otherwise they replace the
line's, and a line that is disabled polls nothing, with its sites OFFLINE and their orders and relay flags gone. That the
first bad setting is sought in the order of Table 8-1 is the model's choice (assumption log 41); by which byte a refusal
names it is a free value (assumption log 2). LINE-STATUS (R165): the reply shows the line, the exchange in flight, the last
fault and the fault total as they stand; with the clear mark set these two go, and without it nothing changes. The presence
bytes of that reply, and its widths where Table 12-1 gives none, are the model's choice (assumption log 17). A line that is
enabled or disabled takes the state of R163, with LINE-STATE where that changes it, after what its sites raise as they go
OFFLINE (R110, R79; assumption log 37). -/
def Obligations.LinesAreControlledAndReported : Prop :=
  (∀ (tag : Byte) (l : Nat) (r : RawSettings) (s : State), Ready s →
    (8 ≤ l → exec (.lineControl tag l 0 r) s = answered Kind.lineControl tag .outOfRange [] s) ∧
    (l ≤ 7 → ∀ bad : List Bool,
      bad = [decide (1 < r.enabled), decide (3 < r.bitRate), decide (r.timeout < 5 ∨ 200 < r.timeout),
             decide (3 < r.mode), decide (1 < r.polarity), decide (1 < r.manual)] →
      (∀ place, bad.findIdx? id = some place →
        exec (.lineControl tag l 0 r) s = answered Kind.lineControl tag .outOfRange [.named place] s) ∧
      (bad.findIdx? id = none →
        (s.storing = true → exec (.lineControl tag l 0 r) s = answered Kind.lineControl tag .busy [] s) ∧
        (s.storing = false → ∀ v : LineSettings, v.enabled = decide (r.enabled = 1) → v.bitRate.code = r.bitRate →
          v.timeout = r.timeout → v.mode = r.mode → v.activeLow = decide (r.polarity = 1) →
          v.manual = decide (r.manual = 1) →
          ∃ t : State,
            exec (.lineControl tag l 0 r) s = answered Kind.lineControl tag .ok
              ((s.line l).settings.fields ++ v.fields ++ [.code (t.line l).state.code]) t ∧
            (t.line l).settings = v ∧ (∀ k, k ≠ l → (t.line k) = s.line k) ∧
            ((s.line l).settings.enabled = v.enabled → t = s.setLine l { s.line l with settings := v }) ∧
            ((s.line l).settings.enabled = true → v.enabled = false →
              (t.line l).state = .disabled ∧ (t.line l).exchange = none ∧ (t.line l).round = none ∧
              (∃ first, Notices s t (first ++ lineNotices s t l none) ∧ OfKinds [.groupSettled, .siteState] first) ∧
              (∀ n ∈ s.sitesOn l, (t.linkOf n).online = false ∧ (t.linkOf n).misses = 0 ∧
                (t.linkOf n).pendingOrder = none ∧ (t.linkOf n).relay = 0 ∧ (t.linkOf n).relayInFlight = 0)) ∧
            ((s.line l).settings.enabled = false → v.enabled = true →
              (t.line l).roundCounter = 0 ∧ (t.line l).state ≠ .disabled ∧ t.links = s.links ∧ HasLineState t l ∧
              Notices s t (lineNotices s t l none) ∧
              (s.sitesOn l ≠ [] → ∃ list, IsPollList t l 0 list ∧
                (t.line l).round = some { remaining := list, formedEmpty := decide (list = []) }) ∧
              (s.sitesOn l = [] → (t.line l).round = none)) ∧
            t.time = s.time ∧ t.roster = s.roster ∧ t.floors = s.floors ∧ t.store = s.store ∧
            t.library = s.library ∧ t.flags = s.flags)))) ∧
  (∀ (tag : Byte) (l : Nat) (s : State), Ready s →
    (∀ clear, 7 < l ∨ 1 < clear → exec (.lineStatus tag l clear) s = answered Kind.lineStatus tag .outOfRange [] s) ∧
    (∀ v fields, l ≤ 7 → v = s.line l →
      fields = [.code v.state.code] ++ v.settings.fields ++ [.mark (lineOkPin s l), .byte (s.sitesOn l).length,
          .byte (onlineSites s l).length, .byte ((s.sitesOn l).length - (onlineSites s l).length),
          .byte v.roundCounter]
        ++ withPresence ([opt (may (v.exchange.map (·.site)) 0 (fun n => [.site n]))] ++ faultParts v.lastFault
          ++ [opt (always [.total v.faultTotal])]) →
      exec (.lineStatus tag l 0) s = answered Kind.lineStatus tag .ok fields s ∧
      exec (.lineStatus tag l 1) s = answered Kind.lineStatus tag .ok fields
        (s.setLine l { v with lastFault := none, faultTotal := 0 })))

/-- POLL_SEND, POLL_SENT, REPORT_START_BIT (R155, R156) and EMPTY_ROUND_END (R153): the exchange begins with the head of the
round's list and the poll formed from the link record as it stands, then waits, then captures the count. An exchange ends at
REPLY_TIMEOUT, REPORT_RECEIVED or REPORT_GAP_TIMEOUT: with sites left in the list the round goes on, and after the last one
the next round begins, with every site of the line in round 0 and the ONLINE ones in rounds 1 to 7, in ascending address
order. Where the line is not at that point, nothing happens (assumption log 4). -/
def Obligations.ExchangeSendsWaitsAndCaptures : Prop :=
  ∀ (l : Nat) (s : State),
    (∀ n rest formed, (s.line l).exchange = none → (s.line l).round = some { remaining := n :: rest, formedEmpty := formed } →
      exec (.pollSend l) s = .next (pump
        ((s.setLine l { s.line l with
            round := some { remaining := rest, formedEmpty := formed }
            exchange := some
              { site := n, address := addressOf s n,
                poll := pollBytes (addressOf s n) (s.linkOf n).pendingOrder (s.linkOf n).relay,
                bitRate := (s.line l).settings.bitRate, timeout := (s.line l).settings.timeout,
                phase := .sending, void := false } }).setLinkOf n
          { s.linkOf n with relayInFlight := (s.linkOf n).relay }))) ∧
    ((s.line l).exchange ≠ none ∨ (s.line l).round = none ∨
        (∃ r, (s.line l).round = some r ∧ r.remaining = []) → exec (.pollSend l) s = .next (pump s)) ∧
    (∀ x, (s.line l).exchange = some x →
      (x.phase = .sending → exec (.pollSent l) s = .next (pump
        (s.setLine l { s.line l with exchange := some { x with phase := .waiting } }))) ∧
      (x.phase ≠ .sending → exec (.pollSent l) s = .next (pump s)) ∧
      (x.phase = .waiting → exec (.reportStartBit l) s = .next (pump
        (s.setLine l { s.line l with exchange := some { x with phase := .receiving s.time.count } }))) ∧
      (x.phase ≠ .waiting → exec (.reportStartBit l) s = .next (pump s))) ∧
    ((s.line l).exchange = none →
      exec (.pollSent l) s = .next (pump s) ∧ exec (.reportStartBit l) s = .next (pump s)) ∧
    ((s.line l).exchange ≠ none ∨ (s.line l).round = none ∨
        (∃ r, (s.line l).round = some r ∧ r.formedEmpty = false) → exec (.emptyRoundEnd l) s = .next (pump s)) ∧
    ((∀ x, (s.line l).exchange = some x → x.phase ≠ .waiting) → exec (.replyTimeout l) s = .next (pump s)) ∧
    (∀ bytes : List Byte, (∀ x c, (s.line l).exchange = some x → x.phase ≠ .receiving c) →
      exec (.reportReceived l bytes) s = .next (pump s) ∧ exec (.reportGapTimeout l bytes) s = .next (pump s)) ∧
    (∀ r, (s.line l).exchange = none → (s.line l).round = some r → r.formedEmpty = true →
      ∃ t : State, exec (.emptyRoundEnd l) s = .next (pump t) ∧ NextRound s t l ∧
        t = s.setLine l (t.line l) ∧ (t.line l).settings = (s.line l).settings ∧
        (t.line l).state = (s.line l).state ∧ (t.line l).exchange = none) ∧
    (∀ x r (bytes : List Byte), (s.line l).exchange = some x → (s.line l).round = some r → r.formedEmpty = false →
      (x.phase = .waiting → ∃ t : State, exec (.replyTimeout l) s = .next (pump t) ∧ RoundGoesOn s t l r) ∧
      (∀ captured, x.phase = .receiving captured →
        (∃ t : State, exec (.reportReceived l bytes) s = .next (pump t) ∧ RoundGoesOn s t l r) ∧
        (∃ t : State, exec (.reportGapTimeout l bytes) s = .next (pump t) ∧ RoundGoesOn s t l r)))

/-- REPLY_TIMEOUT, REPORT_GAP_TIMEOUT and REPORT_RECEIVED that end in a miss (R156, R157, R159, R160): fewer than 13 bytes are
TRUNCATED, bytes whose sync, mark or check is wrong BAD-CRC, and a report of another address WRONG-ADDRESS. The miss is
counted up to 3 and latched, the order and the relay flags wait, and the third miss of an ONLINE site takes it OFFLINE, with
SITE-STATE of cause MISSES (R110) and LINE-STATE (R163) where the states change, GROUP-SETTLED before them where that settles
the group (R79; assumption log 37). An exchange that a roster edit made void has no outcome (R154). -/
def Obligations.MissesCountAndTakeOffline : Prop :=
  ∀ (l : Nat) (bytes : List Byte) (x : Exchange) (s : State) (o : ExchangeOutcome) (source : Option Nat) (c : Instr),
    (s.line l).exchange = some x →
    (x.phase = .waiting ∧ c = .replyTimeout l ∧ o = .noReply ∧ source = none) ∨
    (∃ t, x.phase = .receiving t ∧
      ((c = .reportGapTimeout l bytes ∧ bytes.length < 13 ∧ o = .truncated ∧ source = none) ∨
       (c = .reportReceived l bytes ∧ 13 ≤ bytes.length ∧
        ((¬ ReportIntact bytes ∧ o = .badCrc ∧ source = none) ∨
         (ReportIntact bytes ∧ (bytes.getD 1 0).toNat ≠ x.address ∧ o = .wrongAddress ∧
          source = some (bytes.getD 1 0).toNat))))) →
    ∃ t : State, exec c s = .next (pump t) ∧ (t.line l).exchange = none ∧
      t.time = s.time ∧ t.roster = s.roster ∧ t.library = s.library ∧ t.floors = s.floors ∧ t.flags = s.flags ∧
      (x.void = true → t.links = s.links ∧ t.trackers = s.trackers ∧ (t.line l).lastFault = (s.line l).lastFault ∧
        (t.line l).faultTotal = (s.line l).faultTotal ∧ t.link = s.link) ∧
      (x.void = false →
        (t.linkOf x.site).misses = min 3 ((s.linkOf x.site).misses + 1) ∧
        (t.linkOf x.site).lastOutcome = some o ∧
        (t.linkOf x.site).pendingOrder = (s.linkOf x.site).pendingOrder ∧
        (t.linkOf x.site).relay = (s.linkOf x.site).relay ∧
        (t.linkOf x.site).relayInFlight = (s.linkOf x.site).relayInFlight ∧
        (t.linkOf x.site).online = ((s.linkOf x.site).online && decide ((s.linkOf x.site).misses < 2)) ∧
        ((s.linkOf x.site).online = true → 2 ≤ (s.linkOf x.site).misses →
          (t.tracker x.site).state = .offline ∧ (t.tracker x.site).anchor = false ∧ HasLineState t l ∧
          Notices s t (stateNotices s x.site .offline .misses ++ lineNotices s t l (some x.site))) ∧
        ((s.linkOf x.site).online = false ∨ (s.linkOf x.site).misses < 2 → t.trackers = s.trackers ∧ t.link = s.link) ∧
        (t.line l).lastFault = some { outcome := o, site := x.site, address := x.address, source := source,
                                      count := s.time.count, misses := min 3 ((s.linkOf x.site).misses + 1) } ∧
        (t.line l).faultTotal = min 65535 ((s.line l).faultTotal + 1) ∧
        (∀ k, k ≠ x.site → t.linkOf k = s.linkOf k))

/-- REPORT_RECEIVED of a good report (R157, R158, R161, R162), whose sync, mark, check and address are as they should be:
the order that the site holds is acknowledged, the relay flags it acknowledges leave the set where they were in flight, the
site is ONLINE with no misses, its line takes the state of R163 where it was OFFLINE, with LINE-STATE where that changes, and
the report its bytes carry (Table 12-7) is handed to the STU, the CM and the FU, whose lists of reports handed over are the
model's own (assumption log 14), as is the disturbance count with it (R114; assumption log 31). -/
def Obligations.GoodReportIsHandedOn : Prop :=
  ∀ (l : Nat) (bytes : List Byte) (x : Exchange) (s : State) (captured : Count) (r : Report),
    (s.line l).exchange = some x → x.phase = .receiving captured → x.void = false →
    13 ≤ bytes.length → ReportIntact bytes → (bytes.getD 1 0).toNat = x.address → r = reportOf captured bytes →
    ∃ (t : State) (d : Option Count), exec (.reportReceived l bytes) s = .next (pump t) ∧ (t.line l).exchange = none ∧
      (t.linkOf x.site).online = true ∧ (t.linkOf x.site).misses = 0 ∧
      (t.linkOf x.site).lastOutcome = some .good ∧
      (∀ o, (s.linkOf x.site).pendingOrder = some o →
        (r.held = some o.sequence → (t.linkOf x.site).pendingOrder = none) ∧
        (r.held ≠ some o.sequence → (t.linkOf x.site).pendingOrder = some o)) ∧
      ((s.linkOf x.site).pendingOrder = none → (t.linkOf x.site).pendingOrder = none) ∧
      (t.linkOf x.site).relay
        = (s.linkOf x.site).relay &&& ~~~(r.relayAck &&& (s.linkOf x.site).relayInFlight) ∧
      t.handed = { stu := s.handed.stu ++ [(x.site, { report := r, disturbance := d })],
                   cm := s.handed.cm ++ [(x.site, r)], fu := s.handed.fu ++ [(x.site, r)] } ∧
      (r.flags &&& 7 ≠ 0 → d = some captured) ∧
      (r.flags &&& 7 = 0 → (∀ e ∈ s.handed.cm, e.1 = x.site → e.2.flags &&& 7 = 0) →
        d = (s.monitorOf x.site).lastDisturbance) ∧
      (∀ k, k ≠ x.site → t.linkOf k = s.linkOf k) ∧ (t.line l).settings = (s.line l).settings ∧
      (t.line l).lastFault = (s.line l).lastFault ∧ (t.line l).faultTotal = (s.line l).faultTotal ∧
      ((s.linkOf x.site).online = true → t.link = s.link) ∧
      ((s.linkOf x.site).online = false → HasLineState t l ∧ Notices s t (lineNotices s t l (some x.site))) ∧
      (∀ k, k ≠ l → t.line k = s.line k) ∧ t.trackers = s.trackers ∧ t.monitor = s.monitor ∧ t.flags = s.flags ∧
      t.time = s.time ∧ t.roster = s.roster ∧ t.groups = s.groups ∧ t.library = s.library ∧ t.floors = s.floors

/-! ### The Nonvolatile Store -/

/-- STORE-TABLES, STORE_SECTION_WRITTEN and STORE_END (R196, R197, R203): sections are written in the order of Table 11-1, each
with the four bytes of its check, low byte first; one that does not read back is left without a check, with the new content
(the model's choice, assumption log 34); the next is erased, and STORE-DONE ends the operation. The item count of the
settings section is 8, and that of the timetables section counts program entries, week tables and calendar entries
(assumption log 21). Where no such step is due, nothing happens (assumption log 4). -/
def Obligations.StoreWritesSectionsInOrder : Prop :=
  (∀ (tag : Byte) (s : State), Ready s →
    (s.store.operation ≠ none → exec (.storeTables tag) s = answered Kind.storeTables tag .busy [] s) ∧
    (s.store.operation = none →
      exec (.storeTables tag) s = answered Kind.storeTables tag .ok [.count s.time.count]
        { s with store := { s.store with
            roster := Section.erased, operation := some { accepted := s.time.count, finished := [] } } })) ∧
  (∀ (readsBack : Bool) (s : State), s.store.operation = none →
    exec (.storeSectionWritten readsBack) s = .next (pump s) ∧ exec .storeEnd s = .next (pump s)) ∧
  (∀ (readsBack : Bool) (s : State) (o : StoreOperation) (check : List Byte → List Byte),
    s.store.operation = some o → (∀ b, check b = if readsBack then leBytes 4 (crc32 b).toNat else []) →
    (o.finished.length = 0 → exec (.storeSectionWritten readsBack) s = .next (pump { s with store := { s.store with
      roster := { content := rosterContent s, check := check (rosterContent s) }, settings := Section.erased
      operation := some { o with finished := o.finished ++ [(readsBack, (rosterEntries s).length)] } } })) ∧
    (o.finished.length = 1 → exec (.storeSectionWritten readsBack) s = .next (pump { s with store := { s.store with
      settings := { content := settingsContent s, check := check (settingsContent s) }, plans := Section.erased
      operation := some { o with finished := o.finished ++ [(readsBack, 8)] } } })) ∧
    (o.finished.length = 2 → exec (.storeSectionWritten readsBack) s = .next (pump { s with store := { s.store with
      plans := { content := plansContent s, check := check (plansContent s) }, timetables := Section.erased
      operation := some { o with finished := o.finished ++ [(readsBack, (slotsInState s .posted).length)] } } })) ∧
    (∀ items, o.finished.length = 3 →
      items = sumOf ((upTo 64).map (fun p => (s.program p).length)) + 64 + (calendarEntries s).length →
      exec (.storeSectionWritten readsBack) s = .next (pump { s with store := { s.store with
        timetables := { content := timetablesContent s, check := check (timetablesContent s) }
        operation := some { o with finished := o.finished ++ [(readsBack, items)] } } })) ∧
    (4 ≤ o.finished.length → exec .storeEnd s = .next (pump (raise .storeDone
      (o.finished.flatMap (fun r => [.code (if r.1 then 0 else 1), .total r.2]) ++ [.count o.accepted, .count s.time.count])
      { s with store := { s.store with operation := none } }))) ∧
    (4 ≤ o.finished.length → exec (.storeSectionWritten readsBack) s = .next (pump s)) ∧
    (o.finished.length < 4 → exec .storeEnd s = .next (pump s)))

/-- R144, R150, R123, R195, R199, R203, 12.8: the roster, the settings, the plans and the timetables sections that a store
writes with their checks load as what stood: the roster and the settings where these keep the ranges and limits of WRITE-SITE,
LINE-CONTROL and SET-MONITOR; the header and the entries of each POSTED slot where these keep Tables 2-1 and 2-2 and no two
POSTED slots carry one plan number (R29, R39); the programs, the week tables and the calendar entries where these keep R40, R43
and Table 3-1. -/
def Obligations.StoredSectionsLoadBack : Prop :=
  (∀ (s : State), Table.wf none s.roster = true → rosterFits (rosterEntries s) = true →
    loadSection { content := rosterContent s, check := leBytes 4 (crc32 (rosterContent s)).toNat } parseRoster
      = (.loaded, some (rosterEntries s))) ∧
  (∀ (s : State), (∀ l, l < 8 → 5 ≤ (s.line l).settings.timeout ∧ (s.line l).settings.timeout ≤ 200 ∧
      (s.line l).settings.mode ≤ 3) →
    1 ≤ s.monitor.tolerance → s.monitor.tolerance ≤ 50 → s.monitor.limitCode ≤ 7 →
    loadSection { content := settingsContent s, check := leBytes 4 (crc32 (settingsContent s)).toNat } parseSettings
      = (.loaded, some { lines := (List.range 8).map (fun l => (s.line l).settings), tolerance := s.monitor.tolerance,
                         limitCode := s.monitor.limitCode, mask := s.flags.mask })) ∧
  (∀ (s : State), (∀ n ∈ slotsInState s .posted, PlanInRange (s.slot n)) →
    (∀ n ∈ slotsInState s .posted, ∀ k ∈ slotsInState s .posted, planOfSlot s n = planOfSlot s k → n = k) →
    ∃ ps, loadSection { content := plansContent s, check := leBytes 4 (crc32 (plansContent s)).toNat } parsePlans
        = (.loaded, some ps) ∧
      ps.map (·.slot) = slotsInState s .posted ∧
      ∀ p ∈ ps, (s.slot p.slot).header = some (storedHeader p.header) ∧
        (s.slot p.slot).recordEntries = p.entries.map storedEntry) ∧
  (∀ (s : State), TimetablesInRange s →
    ∃ v, loadSection { content := timetablesContent s, check := leBytes 4 (crc32 (timetablesContent s)).toNat }
        parseTimetables = (.loaded, some v) ∧
      v.programs.map (fun es => es.map storedProgramEntry) = (upTo 64).map s.program ∧
      v.weeks = (upTo 64).map s.week ∧
      v.events.map (fun e => (e.event.id, storedEvent e.event e.sequence)) = calendarEntries s)

/-! ### The planning link -/

/-- PLANNING_LINK_BYTE (R177 to R179, R181): the bytes of a frame, received one after another from HUNT without a framing error,
are the arrival of a frame of that kind, tag and body. -/
def Obligations.FrameBytesArriveAsAFrame : Prop :=
  ∀ (kind tag : Byte) (body : List Byte) (s : State), s.startUp.phase ≠ .held → s.link.framer = .hunt →
    body.length ≤ 1024 →
    (linkFrame kind tag body).foldl (fun t b => receiveByte b false t) s = arrive kind tag body s

/-- PLANNING_LINK_BYTE, which first tells the part the level of COMMISSION_EN and the bits programmed so far (assumption log
11, 29), and FRAME_GAP_TIMEOUT (R179, R180): a quiet link, a framing error, a body length above 1024 and a wrong check inside a
frame reject it, each under its reason: the rejected-frame total rises, FRAME-REJECTED is raised and the framer returns to
HUNT. A good frame, by its command or by its last byte, is served where nothing waits: one of no request kind is answered
UNKNOWN-KIND, one whose body has no length that Table 12-4 allows BAD-LENGTH, without effect, and a request is served, or BUSY
while LOADING but for IDENTIFY and STATUS (R182, R204; assumption log 44). Else it is queued, refused with QUEUE-FULL, or
rejected with OVERRUN, by the room left (R181). FRAME-REJECTED carries what was received of the frame (a byte with a framing
error counts: assumption log 20). While RESET is held nothing is received (assumption log 4). -/
def Obligations.FramesAreQueuedRefusedOrRejected : Prop :=
  (∀ (b : Byte) (seen : Seen) (s v : State) (rejected : State → Nat → Nat → Option Nat → State), v = look seen s →
      (∀ w code bytes length, rejected w code bytes length = raise .frameRejected
          ([.code code, .total bytes] ++ withPresence [maybe length 0 .total,
            maybe (w.link.framer.kind.map (·.toNat)) 0 .byte, maybe (w.link.framer.tag.map (·.toNat)) 0 .byte,
            surely (.count w.time.count)])
          (w.setLink { w.link with framer := .hunt, rejectedTotal := min 65535 (w.link.rejectedTotal + 1) })) →
      (∀ e, exec (.planningLinkByte { value := b, framingError := e } seen) s = .next (pump (receiveByte b e v))) ∧
      (s.startUp.phase = .held →
        ∀ e, exec (.planningLinkByte { value := b, framingError := e } seen) s = .next v) ∧
      (s.link.framer = .hunt → exec .frameGapTimeout s = .next (pump s)) ∧
      (s.link.framer ≠ .hunt → exec .frameGapTimeout s
        = .next (pump (rejected s 0 s.link.framer.received s.link.framer.bodyLength))) ∧
      (s.startUp.phase ≠ .held →
        (s.link.framer = .hunt →
          exec (.planningLinkByte { value := b, framingError := true } seen) s = .next (pump v) ∧
          (b = 0xA5 → exec (.planningLinkByte { value := b, framingError := false } seen) s
            = .next (pump (v.setFramer (.length none)))) ∧
          (b ≠ 0xA5 → exec (.planningLinkByte { value := b, framingError := false } seen) s = .next (pump v))) ∧
        (s.link.framer ≠ .hunt →
          exec (.planningLinkByte { value := b, framingError := true } seen) s
            = .next (pump (rejected v 1 (s.link.framer.received + 1) s.link.framer.bodyLength))) ∧
        (∀ a, s.link.framer = .length (some a) → 1024 < a.toNat + 256 * b.toNat →
          exec (.planningLinkByte { value := b, framingError := false } seen) s
            = .next (pump (rejected v 2 3 (some (a.toNat + 256 * b.toNat))))) ∧
        (∀ n k t got a, s.link.framer = .check n k t got (some a) →
          (a.toNat + 256 * b.toNat ≠ (crc16 (leBytes 2 n ++ [k, t] ++ got)).toNat →
            exec (.planningLinkByte { value := b, framingError := false } seen) s
              = .next (pump (rejected v 3 (got.length + 7) (some n)))) ∧
          (a.toNat + 256 * b.toNat = (crc16 (leBytes 2 n ++ [k, t] ++ got)).toNat → canServe s.link = true →
            (BadLength k got → exec (.planningLinkByte { value := b, framingError := false } seen) s
              = answered k t .badLength [] (v.setFramer .hunt)) ∧
            (unknownKindByte k = true → exec (.planningLinkByte { value := b, framingError := false } seen) s
              = answered k t .unknownKind [] (v.setFramer .hunt)) ∧
            (∀ i, decodeRequest { key := seen.key, programmed := 0 } k t got = .request i →
              (s.startUp.phase = .running ∨ k = Kind.identify ∨ k = Kind.status →
                exec (.planningLinkByte { value := b, framingError := false } seen) s
                  = .next (pump (serveRequest i (v.setFramer .hunt)))) ∧
              (s.startUp.phase ≠ .running → k ≠ Kind.identify → k ≠ Kind.status →
                exec (.planningLinkByte { value := b, framingError := false } seen) s
                  = answered k t .busy [] (v.setFramer .hunt)))) ∧
          (a.toNat + 256 * b.toNat = (crc16 (leBytes 2 n ++ [k, t] ++ got)).toNat → canServe s.link = false →
            FramePlaced k t got (v.setFramer .hunt)
              (exec (.planningLinkByte { value := b, framingError := false } seen) s))))) ∧
  (∀ (tag kind : Byte) (body : List Byte) (s : State), s.startUp.phase ≠ .held → unknownKindByte kind = true →
      canServe s.link = true → exec (.unknownKind tag kind body) s = answered kind tag .unknownKind [] s) ∧
  (∀ (i : Instr) (kind tag : Byte) (body : List Byte) (s v : State), encodeRequest i = some (kind, tag, body) →
      s.startUp.phase ≠ .held → v = toldBeside i s →
      (canServe s.link = true → s.startUp.phase = .running → (∀ k t b, i ≠ .unknownKind k t b) →
        exec i s = .next (pump (serveRequest i v))) ∧
      (canServe s.link = false → FramePlaced kind tag body v (exec i s)))

/-- A notice raised joins the tail of the notice queue while that holds fewer than 64; at 64 it is dropped, the lost mark is
set and the lost count rises by one from 0 at the first drop, held at 65535, and the kind and count of the first drop are kept
(R187, R188). FRAME_TRANSMIT_END of a frame that is no OK reply to RESTART, and the arbiter (R186, R188): the transmitter takes
a refusal before a reply before a notice, and a notice that leaves while the lost mark is set makes room for NOTICES-LOST. A
request that waits in the queue is served as the reply slot empties (R182), unless RESTART has been served (R191); one of no
request kind is answered UNKNOWN-KIND, and one whose body has no length that Table 12-4 allows BAD-LENGTH. The command first
tells the part the level of COMMISSION_EN and the bits programmed so far (assumption log 11, 29). -/
def Obligations.ArbiterPrefersRefusalsThenReplies : Prop :=
  (∀ (kind : NoticeKind) (fields : List Field) (s : State),
    (s.link.notices.length < 64 → raise kind fields s
      = s.setLink { s.link with notices := s.link.notices ++ [{ kind := kind, fields := fields }] }) ∧
    (64 ≤ s.link.notices.length →
      (s.link.lostMark = false → raise kind fields s
        = s.setLink { s.link with lostMark := true, lostCount := 1, firstLost := some (kind, s.time.count) }) ∧
      (s.link.lostMark = true → raise kind fields s
        = s.setLink { s.link with lostCount := min 65535 (s.link.lostCount + 1) }))) ∧
  ∀ (ending : FrameEnd) (s v : State) (f : TxFrame), v = look ending.seen s → s.link.inFlight = some f →
    isRestartReply f = false → s.startUp.phase ≠ .held →
    (∀ k t rest, s.link.refusals = (k, t) :: rest → s.link.queue = [] ∨ s.link.replySlot ≠ none →
      exec (.frameTransmitEnd ending) s = .next (v.setLink
        { s.link with refusals := rest, inFlight := some (.queueFull k t) })) ∧
    (s.link.refusals = [] →
      (∀ r u, s.link.replySlot = some r →
        u = v.setLink { s.link with replySlot := none, inFlight := some (.reply r) } →
        (s.link.queue = [] ∨ s.link.stopped = true → exec (.frameTransmitEnd ending) s = .next u) ∧
        (∀ q rest w, s.link.queue = q :: rest → s.link.stopped = false →
          w = u.setLink { u.link with queue := rest } →
          exec (.frameTransmitEnd ending) s = .next (serveRecord q.kind q.tag q.body w) ∧
          (unknownKindByte q.kind = true → exec (.frameTransmitEnd ending) s
            = .next (answer q.kind q.tag .unknownKind [] w)) ∧
          (BadLength q.kind q.body → exec (.frameTransmitEnd ending) s
            = .next (answer q.kind q.tag .badLength [] w)) ∧
          (∀ i, decodeRequest { key := ending.seen.key, programmed := 0 } q.kind q.tag q.body = .request i →
            s.startUp.phase = .running →
            exec (.frameTransmitEnd ending) s = .next (serveRequest i w)))) ∧
      (s.link.replySlot = none → s.link.queue = [] →
        (∀ n rest, s.link.notices = n :: rest → s.link.lostMark = false →
          exec (.frameTransmitEnd ending) s = .next (v.setLink
            { s.link with notices := rest, inFlight := some (.notice n) })) ∧
        (∀ n rest k c, s.link.notices = n :: rest → s.link.lostMark = true → s.link.firstLost = some (k, c) →
          exec (.frameTransmitEnd ending) s = .next (v.setLink
            { s.link with
              notices := rest ++ [{ kind := .noticesLost,
                                    fields := [.total s.link.lostCount, .code k.code.toNat, .count c] }]
              lostMark := false, lostCount := 0, firstLost := none, inFlight := some (.notice n) })) ∧
        (s.link.notices = [] →
          exec (.frameTransmitEnd ending) s = .next (v.setLink { s.link with inFlight := none }))))

/-- IDENTIFY (R189) and STATUS (R190) in every start-up state once the reset is released, RESTART (R191) while RUNNING, and
BUSY to every other request while LOADING (R182). The widths of the numbers of IDENTIFY and the presence bytes of STATUS are
the model's choice (assumption log 17), as are the sites that STATUS counts (assumption log 18) and that BUSY carries no
field for READ-EVENT either (assumption log 44). OPEN-COMMISSIONING and READ-FLOOR first tell the part what comes with them
(assumption log 11, 29). -/
def Obligations.IdentifyAndRestartAreServed : Prop :=
  ∀ (tag : Byte) (s : State), canServe s.link = true →
    (s.startUp.phase ≠ .held →
      exec (.identify tag) s = answered Kind.identify tag .ok
        [.total 0x4254, .total 0x7320, .byte 1, .total 384, .byte 64, .byte 96, .byte 250, .byte 48, .byte 64, .byte 24,
         .byte 128, .byte 8, .byte 48, .byte 48, .byte 4, .byte 4, .byte 64, .total 1024, .code s.link.rate] s ∧
      exec (.status tag) s = answered Kind.status tag .ok (statusFields s) s) ∧
    (s.startUp.phase = .running → ∀ t : State, t = answer Kind.restart tag .ok [] s →
      exec (.restart tag) s = .next (pump (t.setLink { t.link with stopped := true }))) ∧
    (s.startUp.phase = .loading →
      (∀ i kind t body, encodeRequest i = some (kind, t, body) → (∀ k u b, i ≠ .unknownKind k u b) →
        kind ≠ Kind.identify → kind ≠ Kind.status → (∀ u k, i ≠ .openCommissioning u k) →
        (∀ u r, i ≠ .readFloor u r) → exec i s = answered kind t .busy [] s) ∧
      (∀ key, exec (.openCommissioning tag key) s
        = answered Kind.openCommissioning tag .busy [] (readKey key s)) ∧
      (∀ read, exec (.readFloor tag read) s = answered Kind.readFloor tag .busy [] (look read.seen s)))

/-- R177, R182, Table 12-4: the request that a frame makes is the one from which its kind, tag and body were formed, for every
well-formed request. What OPEN-COMMISSIONING and READ-FLOOR carry beside their frame is the model's own (assumption log 11,
29). -/
def Obligations.RequestFramesDecodeBack : Prop :=
  ∀ (i : Instr) (kind tag : Byte) (body : List Byte), i.wellFormed = true →
    encodeRequest i = some (kind, tag, body) →
    (decodeRequest (besideFrame i) kind tag body = .request i ∨ i = .unknownKind tag kind body) ∧
    body.length ≤ 1024

/-- R182, R183, R185: every request that is served is answered with the kind and tag it came with, and one answered with any
status but OK or ADJUSTED changed no state. -/
def Obligations.RefusalsChangeNothing : Prop :=
  ∀ (i : Instr) (s : State) (kind tag : Byte) (body : List Byte), encodeRequest i = some (kind, tag, body) →
    (∀ k t b, i ≠ .unknownKind k t b) →
    ∃ r : Reply, (serveRequest i s).link.replySlot = some r ∧ r.kind = kind ∧ r.tag = tag ∧
      (r.status ≠ .ok → r.status ≠ .adjusted → serveRequest i s = answer kind tag r.status r.fields s)

/-! ### The whole part -/

/-- Every command keeps the invariant `Sound`: canonical tables, the capacities of R181, R187 and R188, the programmer's
promise of R132 and R133, and the window of R139 and R140. -/
def Obligations.EveryCommandKeepsSoundness : Prop :=
  ∀ (c : Instr) (s t : State), Sound s → exec c s = .next t → Sound t

/-- Every command keeps each group in agreement with its members (R76 to R79, R198, R200): its member count is the number of
roster sites that name it, its in-step count the number of those that are IN-STEP and not held, and no settle judgement is
left to make; before the part is RUNNING there are no groups, trackers, rounds, exchanges or reports. -/
def Obligations.EveryCommandKeepsMembership : Prop :=
  ∀ (c : Instr) (s t : State), Sound s → GroupsFit s → exec c s = .next t → GroupsFit t

/-- The state after reset is sound, and its groups agree with their members. -/
def Obligations.ResetStateIsSound : Prop := Sound State.reset ∧ GroupsFit State.reset
end

