-- ==== Sys2Proof/Laws/Tables.lean ====
section
/-! SUPPORT. The laws of tables: what a record reads as after a write, and that every operation keeps the canonical form. -/

namespace Sys2Proof.Machine

variable {α : Type}

@[simp] theorem Table.get_nil (d : α) (k : Nat) : Table.get d [] k = d := rfl

theorem Table.get_cons (d : α) (e : Nat × α) (r : Table α) (k : Nat) :
    Table.get d (e :: r) k = if e.1 = k then e.2 else Table.get d r k := rfl

/-- A filter on numbers keeps the records of the numbers it keeps, and drops the others. -/
theorem Table.get_filter_key (d : α) (p : Nat → Bool) (t : Table α) (k : Nat) :
    Table.get d (t.filter (fun e => p e.1)) k = if p k then Table.get d t k else d := by
  induction t with
  | nil => cases p k <;> rfl
  | cons e r ih =>
    rw [List.filter_cons, Table.get_cons]
    by_cases hk : e.1 = k
    · subst hk
      cases hp : p e.1 <;> simp [Table.get_cons, ih, hp]
    · cases hp : p e.1 <;> simp [Table.get_cons, ih, hk]

@[simp] theorem Table.get_erase_same (d : α) (t : Table α) (k : Nat) : Table.get d (Table.erase t k) k = d := by
  rw [Table.erase, Table.get_filter_key d (fun j => j != k)]; simp

theorem Table.get_erase_other (d : α) (t : Table α) {j k : Nat} (h : j ≠ k) :
    Table.get d (Table.erase t k) j = Table.get d t j := by
  rw [Table.erase, Table.get_filter_key d (fun i => i != k)]; simp [h]

theorem Table.get_insert_other (d : α) (t : Table α) {j k : Nat} (v : α) (h : j ≠ k) :
    Table.get d (Table.insert t k v) j = Table.get d t j := by
  induction t with
  | nil => simp [Table.insert, Table.get_cons, Ne.symm h]
  | cons e r ih =>
    unfold Table.insert
    split <;> simp [Table.get_cons, Ne.symm h, ih]

/-- Where the number is not listed, an inserted record is the one read. -/
theorem Table.get_insert_same (d : α) (t : Table α) (k : Nat) (v : α) (h : ∀ e ∈ t, e.1 ≠ k) :
    Table.get d (Table.insert t k v) k = v := by
  induction t with
  | nil => simp [Table.insert, Table.get_cons]
  | cons e r ih =>
    have he := h e (by simp)
    unfold Table.insert
    split
    · simp [Table.get_cons]
    · simp [Table.get_cons, he, ih (fun x hx => h x (by simp [hx]))]

theorem Table.not_mem_erase (t : Table α) (k : Nat) : ∀ e ∈ Table.erase t k, e.1 ≠ k := by
  simp [Table.erase]

variable [DecidableEq α]

/-- Read after a write to the same number. -/
@[simp] theorem Table.get_set_same (d : α) (t : Table α) (k : Nat) (v : α) :
    Table.get d (Table.set d t k v) k = v := by
  unfold Table.set
  split
  · simp [*]
  · exact Table.get_insert_same d _ k v (Table.not_mem_erase t k)

/-- A write leaves every other number alone. -/
theorem Table.get_set_other (d : α) (t : Table α) {j k : Nat} (v : α) (h : j ≠ k) :
    Table.get d (Table.set d t k v) j = Table.get d t j := by
  unfold Table.set
  split
  · exact Table.get_erase_other d t h
  · rw [Table.get_insert_other d _ v h, Table.get_erase_other d t h]

theorem Table.get_set (d : α) (t : Table α) (j k : Nat) (v : α) :
    Table.get d (Table.set d t k v) j = if j = k then v else Table.get d t j := by
  split
  · subst j; simp
  · exact Table.get_set_other d t v ‹_›

omit [DecidableEq α] in
theorem Table.erase_erase (t : Table α) (k : Nat) : Table.erase (Table.erase t k) k = Table.erase t k := by
  simp [Table.erase]

omit [DecidableEq α] in
theorem Table.erase_insert (t : Table α) (k : Nat) (v : α) :
    Table.erase (Table.insert t k v) k = Table.erase t k := by
  induction t with
  | nil => simp [Table.insert, Table.erase]
  | cons e r ih =>
    unfold Table.insert
    split
    · simp [Table.erase]
    · simp only [Table.erase, List.filter_cons] at *
      split <;> simp [ih]

/-- The last of two writes to the same number stands. -/
@[simp] theorem Table.set_set (d : α) (t : Table α) (k : Nat) (v w : α) :
    Table.set d (Table.set d t k v) k w = Table.set d t k w := by
  have h : Table.erase (Table.set d t k v) k = Table.erase t k := by
    unfold Table.set
    split
    · exact Table.erase_erase t k
    · rw [Table.erase_insert, Table.erase_erase]
  unfold Table.set at *
  rw [h]

/-! ### The canonical form -/

omit [DecidableEq α] in
/-- Every number of the table is above `k`. -/
theorem Table.get_of_above (d : α) (t : Table α) (k : Nat) (h : ∀ e ∈ t, k < e.1) : Table.get d t k = d := by
  induction t with
  | nil => rfl
  | cons e r ih =>
    have := h e (by simp)
    rw [Table.get_cons, if_neg (by omega), ih (fun x hx => h x (by simp [hx]))]

theorem Table.wf_cons (d : α) (e : Nat × α) (r : Table α) :
    Table.wf d (e :: r) = true ↔ e.2 ≠ d ∧ (∀ f ∈ r, e.1 < f.1) ∧ Table.wf d r = true := by
  simp [Table.wf, and_assoc]

@[simp] theorem Table.wf_nil (d : α) : Table.wf d [] = true := rfl

/-- A filter keeps the canonical form. -/
theorem Table.wf_filter (d : α) (p : Nat × α → Bool) (t : Table α) (h : Table.wf d t = true) :
    Table.wf d (t.filter p) = true := by
  induction t with
  | nil => rfl
  | cons e r ih =>
    rw [Table.wf_cons] at h
    rw [List.filter_cons]
    split
    · rw [Table.wf_cons]
      exact ⟨h.1, fun f hf => h.2.1 f (List.mem_filter.1 hf).1, ih h.2.2⟩
    · exact ih h.2.2

theorem Table.wf_erase (d : α) (t : Table α) (k : Nat) (h : Table.wf d t = true) :
    Table.wf d (Table.erase t k) = true := Table.wf_filter d _ t h

omit [DecidableEq α] in
theorem Table.mem_insert (t : Table α) (k : Nat) (v : α) (f : Nat × α) :
    f ∈ Table.insert t k v ↔ f = (k, v) ∨ f ∈ t := by
  induction t with
  | nil => simp [Table.insert]
  | cons e r ih =>
    unfold Table.insert
    split
    · simp
    · simp only [List.mem_cons, ih]; exact or_left_comm

theorem Table.wf_insert (d : α) (t : Table α) (k : Nat) (v : α) (hv : v ≠ d) (hk : ∀ e ∈ t, e.1 ≠ k)
    (h : Table.wf d t = true) : Table.wf d (Table.insert t k v) = true := by
  induction t with
  | nil => simp [Table.insert, Table.wf, hv]
  | cons e r ih =>
    have hw := (Table.wf_cons d e r).1 h
    unfold Table.insert
    split
    · rename_i hlt
      rw [Table.wf_cons]
      refine ⟨hv, fun f hf => ?_, h⟩
      rcases List.mem_cons.1 hf with rfl | hf
      · exact hlt
      · exact Nat.lt_trans hlt (hw.2.1 f hf)
    · rename_i hlt
      have he := hk e (by simp)
      rw [Table.wf_cons]
      refine ⟨hw.1, fun f hf => ?_, ih (fun x hx => hk x (by simp [hx])) hw.2.2⟩
      rcases (Table.mem_insert r k v f).1 hf with rfl | hf
      · simp only; omega
      · exact hw.2.1 f hf

/-- A write keeps the canonical form. -/
theorem Table.wf_set (d : α) (t : Table α) (k : Nat) (v : α) (h : Table.wf d t = true) :
    Table.wf d (Table.set d t k v) = true := by
  unfold Table.set
  split
  · exact Table.wf_erase d t k h
  · exact Table.wf_insert d _ k v ‹_› (Table.not_mem_erase t k) (Table.wf_erase d t k h)

omit [DecidableEq α] in
theorem Table.erase_of_not_mem (t : Table α) (k : Nat) (h : ∀ e ∈ t, e.1 ≠ k) : Table.erase t k = t := by
  rw [Table.erase, List.filter_eq_self]
  intro e he
  simpa using h e he

/-- Writing the record that a number holds changes nothing of a table in canonical form. -/
theorem Table.set_get (d : α) (t : Table α) (k : Nat) (h : Table.wf d t = true) :
    Table.set d t k (Table.get d t k) = t := by
  induction t with
  | nil => simp [Table.set, Table.erase]
  | cons e r ih =>
    have hw := (Table.wf_cons d e r).1 h
    by_cases hk : e.1 = k
    · subst hk
      have hr : Table.erase r e.1 = r :=
        Table.erase_of_not_mem r e.1 (fun f hf => Nat.ne_of_gt (hw.2.1 f hf))
      have he : Table.erase (e :: r) e.1 = r := by
        rw [← hr]; simp [Table.erase]
      rw [Table.get_cons, if_pos rfl, Table.set, if_neg hw.1, he]
      cases r with
      | nil => rfl
      | cons f q => simp [Table.insert, hw.2.1 f (by simp)]
    · have ih := ih hw.2.2
      rw [Table.get_cons, if_neg hk]
      have he : Table.erase (e :: r) k = e :: Table.erase r k := by simp [Table.erase, hk]
      unfold Table.set at *
      rw [he]
      split
      · rename_i hd; rw [if_pos hd] at ih; rw [ih]
      · rename_i hd
        rw [if_neg hd] at ih
        have hlt : ¬ k < e.1 := by
          intro hlt
          exact hd (Table.get_of_above d r k (fun f hf => Nat.lt_trans hlt (hw.2.1 f hf)))
        rw [Table.insert, if_neg hlt, ih]

/-- What a table in canonical form lists is what it reads as, where that is not the default. -/
theorem Table.mem_iff_get (d : α) (t : Table α) (k : Nat) (v : α) (h : Table.wf d t = true) :
    (k, v) ∈ t ↔ Table.get d t k = v ∧ v ≠ d := by
  induction t with
  | nil => simp only [List.not_mem_nil, Table.get_nil, false_iff]; rintro ⟨rfl, h⟩; exact h rfl
  | cons e r ih =>
    have hw := (Table.wf_cons d e r).1 h
    rw [List.mem_cons, ih hw.2.2, Table.get_cons]
    by_cases hk : e.1 = k
    · subst hk
      rw [if_pos rfl, Table.get_of_above d r e.1 hw.2.1]
      constructor
      · rintro (h | ⟨rfl, h⟩)
        · have hv : e.2 = v := congrArg Prod.snd h.symm
          exact ⟨hv, hv ▸ hw.1⟩
        · exact absurd rfl h
      · rintro ⟨rfl, -⟩; exact .inl rfl
    · rw [if_neg hk]
      constructor
      · rintro (rfl | h)
        · exact absurd rfl hk
        · exact h
      · exact .inr

/-- Two tables in canonical form that read the same at every number are the same table. -/
theorem Table.ext_get (d : α) (t u : Table α) (ht : Table.wf d t = true) (hu : Table.wf d u = true)
    (h : ∀ k, Table.get d t k = Table.get d u k) : t = u := by
  induction t generalizing u with
  | nil =>
    cases u with
    | nil => rfl
    | cons f q =>
      have := h f.1
      rw [Table.get_nil, Table.get_cons, if_pos rfl] at this
      exact absurd this.symm ((Table.wf_cons d f q).1 hu).1
  | cons e r ih =>
    have hw := (Table.wf_cons d e r).1 ht
    cases u with
    | nil =>
      have := h e.1
      rw [Table.get_nil, Table.get_cons, if_pos rfl] at this
      exact absurd this hw.1
    | cons f q =>
      have hv := (Table.wf_cons d f q).1 hu
      have hlt : ¬ e.1 < f.1 := by
        intro hlt
        have := h e.1
        rw [Table.get_cons, if_pos rfl, Table.get_of_above d (f :: q) e.1 (by
          intro x hx
          rcases List.mem_cons.1 hx with rfl | hx
          · exact hlt
          · exact Nat.lt_trans hlt (hv.2.1 x hx))] at this
        exact hw.1 this
      have hgt : ¬ f.1 < e.1 := by
        intro hgt
        have := h f.1
        rw [Table.get_cons d f, if_pos rfl, Table.get_of_above d (e :: r) f.1 (by
          intro x hx
          rcases List.mem_cons.1 hx with rfl | hx
          · exact hgt
          · exact Nat.lt_trans hgt (hw.2.1 x hx))] at this
        exact hv.1 this.symm
      have hef : e.1 = f.1 := by omega
      have h2 : e.2 = f.2 := by
        have := h e.1
        rwa [Table.get_cons, if_pos rfl, Table.get_cons, if_pos hef.symm] at this
      have : r = q := by
        refine ih q hw.2.2 hv.2.2 (fun k => ?_)
        by_cases hk : k = e.1
        · subst hk
          rw [Table.get_of_above d r _ hw.2.1, Table.get_of_above d q _ (by rw [hef]; exact hv.2.1)]
        · have := h k
          rwa [Table.get_cons, if_neg (Ne.symm hk), Table.get_cons, if_neg (by omega)] at this
      rw [this, Prod.ext hef h2]

end Sys2Proof.Machine
end

