-- ==== Sys2Proof/Laws/State.lean ====
section
/-! SUPPORT. For every named update of the state: what each field and each record reads as after it. All but the reads of
the record written are true by `rfl`. -/

namespace Sys2Proof.Machine

/-! ### `State.setSlot` -/

section
variable (s : State) (n : Nat) (v : Slot)

@[simp] theorem State.setSlot_time : (s.setSlot n v).time = s.time := rfl
@[simp] theorem State.setSlot_retained : (s.setSlot n v).retained = s.retained := rfl
@[simp] theorem State.setSlot_library_slots :
    (s.setSlot n v).library.slots = Table.set Slot.empty s.library.slots n v := rfl
@[simp] theorem State.setSlot_library_freeList : (s.setSlot n v).library.freeList = s.library.freeList := rfl
@[simp] theorem State.setSlot_library_checkQueue : (s.setSlot n v).library.checkQueue = s.library.checkQueue := rfl
@[simp] theorem State.setSlot_library_checking : (s.setSlot n v).library.checking = s.library.checking := rfl
@[simp] theorem State.setSlot_resolver : (s.setSlot n v).resolver = s.resolver := rfl
@[simp] theorem State.setSlot_groups : (s.setSlot n v).groups = s.groups := rfl
@[simp] theorem State.setSlot_trackers : (s.setSlot n v).trackers = s.trackers := rfl
@[simp] theorem State.setSlot_monitor : (s.setSlot n v).monitor = s.monitor := rfl
@[simp] theorem State.setSlot_floors : (s.setSlot n v).floors = s.floors := rfl
@[simp] theorem State.setSlot_roster : (s.setSlot n v).roster = s.roster := rfl
@[simp] theorem State.setSlot_links : (s.setSlot n v).links = s.links := rfl
@[simp] theorem State.setSlot_lines : (s.setSlot n v).lines = s.lines := rfl
@[simp] theorem State.setSlot_handed : (s.setSlot n v).handed = s.handed := rfl
@[simp] theorem State.setSlot_flags : (s.setSlot n v).flags = s.flags := rfl
@[simp] theorem State.setSlot_link : (s.setSlot n v).link = s.link := rfl
@[simp] theorem State.setSlot_store : (s.setSlot n v).store = s.store := rfl
@[simp] theorem State.setSlot_startUp : (s.setSlot n v).startUp = s.startUp := rfl
@[simp] theorem State.setSlot_pins : (s.setSlot n v).pins = s.pins := rfl
@[simp] theorem State.setSlot_pending : (s.setSlot n v).pending = s.pending := rfl

/-- Read after a write of the same record. -/
@[simp] theorem State.setSlot_get_same : (s.setSlot n v).slot n = v := Table.get_set_same _ _ _ _

theorem State.setSlot_get_other {k : Nat} (h : k ≠ n) : (s.setSlot n v).slot k = s.slot k := Table.get_set_other _ _ _ h

theorem State.setSlot_get (k : Nat) : (s.setSlot n v).slot k = if k = n then v else s.slot k := Table.get_set _ _ _ _ _

/-- The last of two writes of the same record stands. -/
@[simp] theorem State.setSlot_setSlot (w) : (s.setSlot n v).setSlot n w = s.setSlot n w := by
  simp only [State.setSlot, Table.set_set]

@[simp] theorem State.setSlot_group_ (k : Nat) : (s.setSlot n v).group k = s.group k := rfl
@[simp] theorem State.setSlot_resumeOf (k : Nat) : (s.setSlot n v).resumeOf k = s.resumeOf k := rfl
@[simp] theorem State.setSlot_held (k : Nat) : (s.setSlot n v).held k = s.held k := rfl
@[simp] theorem State.setSlot_tracker (k : Nat) : (s.setSlot n v).tracker k = s.tracker k := rfl
@[simp] theorem State.setSlot_monitorOf (k : Nat) : (s.setSlot n v).monitorOf k = s.monitorOf k := rfl
@[simp] theorem State.setSlot_floorEntry (k : Nat) : (s.setSlot n v).floorEntry k = s.floorEntry k := rfl
@[simp] theorem State.setSlot_effectiveFloor (k : Nat) : (s.setSlot n v).effectiveFloor k = s.effectiveFloor k := rfl
@[simp] theorem State.setSlot_rosterEntry (k : Nat) : (s.setSlot n v).rosterEntry k = s.rosterEntry k := rfl
@[simp] theorem State.setSlot_linkOf (k : Nat) : (s.setSlot n v).linkOf k = s.linkOf k := rfl
@[simp] theorem State.setSlot_line (k : Nat) : (s.setSlot n v).line k = s.line k := rfl
@[simp] theorem State.setSlot_raisedFlags (k : Nat) : (s.setSlot n v).raisedFlags k = s.raisedFlags k := rfl
@[simp] theorem State.setSlot_program (k : Nat) : (s.setSlot n v).program k = s.program k := rfl
@[simp] theorem State.setSlot_week (k : Nat) : (s.setSlot n v).week k = s.week k := rfl
@[simp] theorem State.setSlot_event (k : Nat) : (s.setSlot n v).event k = s.event k := rfl
@[simp] theorem State.setSlot_forceOf (k : Nat) : (s.setSlot n v).forceOf k = s.forceOf k := rfl
@[simp] theorem State.setSlot_governing (k : Nat) : (s.setSlot n v).governing k = s.governing k := rfl
@[simp] theorem State.setSlot_membersOf (k : Nat) : (s.setSlot n v).membersOf k = s.membersOf k := rfl
@[simp] theorem State.setSlot_sitesOn (k : Nat) : (s.setSlot n v).sitesOn k = s.sitesOn k := rfl
@[simp] theorem State.setSlot_groupOf (k : Nat) : (s.setSlot n v).groupOf k = s.groupOf k := rfl
@[simp] theorem State.setSlot_now : (s.setSlot n v).now = s.now := rfl
@[simp] theorem State.setSlot_isRunning : (s.setSlot n v).isRunning = s.isRunning := rfl
@[simp] theorem State.setSlot_storing : (s.setSlot n v).storing = s.storing := rfl

end

/-! ### `State.setGroup` -/

section
variable (s : State) (n : Nat) (v : GroupRecord)

@[simp] theorem State.setGroup_time : (s.setGroup n v).time = s.time := rfl
@[simp] theorem State.setGroup_retained : (s.setGroup n v).retained = s.retained := rfl
@[simp] theorem State.setGroup_library : (s.setGroup n v).library = s.library := rfl
@[simp] theorem State.setGroup_resolver : (s.setGroup n v).resolver = s.resolver := rfl
@[simp] theorem State.setGroup_groups : (s.setGroup n v).groups = Table.set GroupRecord.empty s.groups n v := rfl
@[simp] theorem State.setGroup_trackers : (s.setGroup n v).trackers = s.trackers := rfl
@[simp] theorem State.setGroup_monitor : (s.setGroup n v).monitor = s.monitor := rfl
@[simp] theorem State.setGroup_floors : (s.setGroup n v).floors = s.floors := rfl
@[simp] theorem State.setGroup_roster : (s.setGroup n v).roster = s.roster := rfl
@[simp] theorem State.setGroup_links : (s.setGroup n v).links = s.links := rfl
@[simp] theorem State.setGroup_lines : (s.setGroup n v).lines = s.lines := rfl
@[simp] theorem State.setGroup_handed : (s.setGroup n v).handed = s.handed := rfl
@[simp] theorem State.setGroup_flags : (s.setGroup n v).flags = s.flags := rfl
@[simp] theorem State.setGroup_link : (s.setGroup n v).link = s.link := rfl
@[simp] theorem State.setGroup_store : (s.setGroup n v).store = s.store := rfl
@[simp] theorem State.setGroup_startUp : (s.setGroup n v).startUp = s.startUp := rfl
@[simp] theorem State.setGroup_pins : (s.setGroup n v).pins = s.pins := rfl
@[simp] theorem State.setGroup_pending : (s.setGroup n v).pending = s.pending := rfl
@[simp] theorem State.setGroup_slot (k : Nat) : (s.setGroup n v).slot k = s.slot k := rfl

/-- Read after a write of the same record. -/
@[simp] theorem State.setGroup_get_same : (s.setGroup n v).group n = v := Table.get_set_same _ _ _ _

theorem State.setGroup_get_other {k : Nat} (h : k ≠ n) : (s.setGroup n v).group k = s.group k := Table.get_set_other _ _ _ h

theorem State.setGroup_get (k : Nat) : (s.setGroup n v).group k = if k = n then v else s.group k := Table.get_set _ _ _ _ _

/-- The last of two writes of the same record stands. -/
@[simp] theorem State.setGroup_setGroup (w) : (s.setGroup n v).setGroup n w = s.setGroup n w := by
  simp only [State.setGroup, Table.set_set]

@[simp] theorem State.setGroup_resumeOf (k : Nat) : (s.setGroup n v).resumeOf k = s.resumeOf k := rfl
@[simp] theorem State.setGroup_held (k : Nat) : (s.setGroup n v).held k = s.held k := rfl
@[simp] theorem State.setGroup_tracker (k : Nat) : (s.setGroup n v).tracker k = s.tracker k := rfl
@[simp] theorem State.setGroup_monitorOf (k : Nat) : (s.setGroup n v).monitorOf k = s.monitorOf k := rfl
@[simp] theorem State.setGroup_floorEntry (k : Nat) : (s.setGroup n v).floorEntry k = s.floorEntry k := rfl
@[simp] theorem State.setGroup_effectiveFloor (k : Nat) :
    (s.setGroup n v).effectiveFloor k = s.effectiveFloor k := rfl
@[simp] theorem State.setGroup_rosterEntry (k : Nat) : (s.setGroup n v).rosterEntry k = s.rosterEntry k := rfl
@[simp] theorem State.setGroup_linkOf (k : Nat) : (s.setGroup n v).linkOf k = s.linkOf k := rfl
@[simp] theorem State.setGroup_line (k : Nat) : (s.setGroup n v).line k = s.line k := rfl
@[simp] theorem State.setGroup_raisedFlags (k : Nat) : (s.setGroup n v).raisedFlags k = s.raisedFlags k := rfl
@[simp] theorem State.setGroup_program (k : Nat) : (s.setGroup n v).program k = s.program k := rfl
@[simp] theorem State.setGroup_week (k : Nat) : (s.setGroup n v).week k = s.week k := rfl
@[simp] theorem State.setGroup_event (k : Nat) : (s.setGroup n v).event k = s.event k := rfl
@[simp] theorem State.setGroup_forceOf (k : Nat) : (s.setGroup n v).forceOf k = s.forceOf k := rfl
@[simp] theorem State.setGroup_governing (k : Nat) : (s.setGroup n v).governing k = s.governing k := rfl
@[simp] theorem State.setGroup_membersOf (k : Nat) : (s.setGroup n v).membersOf k = s.membersOf k := rfl
@[simp] theorem State.setGroup_sitesOn (k : Nat) : (s.setGroup n v).sitesOn k = s.sitesOn k := rfl
@[simp] theorem State.setGroup_groupOf (k : Nat) : (s.setGroup n v).groupOf k = s.groupOf k := rfl
@[simp] theorem State.setGroup_now : (s.setGroup n v).now = s.now := rfl
@[simp] theorem State.setGroup_isRunning : (s.setGroup n v).isRunning = s.isRunning := rfl
@[simp] theorem State.setGroup_storing : (s.setGroup n v).storing = s.storing := rfl

end

/-! ### `State.setResume` -/

section
variable (s : State) (n : Nat) (v : ResumeRecord)

@[simp] theorem State.setResume_time : (s.setResume n v).time = s.time := rfl
@[simp] theorem State.setResume_retained_cause : (s.setResume n v).retained.cause = s.retained.cause := rfl
@[simp] theorem State.setResume_retained_resume :
    (s.setResume n v).retained.resume = Table.set ResumeRecord.free s.retained.resume n v := rfl
@[simp] theorem State.setResume_retained_holds : (s.setResume n v).retained.holds = s.retained.holds := rfl
@[simp] theorem State.setResume_library : (s.setResume n v).library = s.library := rfl
@[simp] theorem State.setResume_resolver : (s.setResume n v).resolver = s.resolver := rfl
@[simp] theorem State.setResume_groups : (s.setResume n v).groups = s.groups := rfl
@[simp] theorem State.setResume_trackers : (s.setResume n v).trackers = s.trackers := rfl
@[simp] theorem State.setResume_monitor : (s.setResume n v).monitor = s.monitor := rfl
@[simp] theorem State.setResume_floors : (s.setResume n v).floors = s.floors := rfl
@[simp] theorem State.setResume_roster : (s.setResume n v).roster = s.roster := rfl
@[simp] theorem State.setResume_links : (s.setResume n v).links = s.links := rfl
@[simp] theorem State.setResume_lines : (s.setResume n v).lines = s.lines := rfl
@[simp] theorem State.setResume_handed : (s.setResume n v).handed = s.handed := rfl
@[simp] theorem State.setResume_flags : (s.setResume n v).flags = s.flags := rfl
@[simp] theorem State.setResume_link : (s.setResume n v).link = s.link := rfl
@[simp] theorem State.setResume_store : (s.setResume n v).store = s.store := rfl
@[simp] theorem State.setResume_startUp : (s.setResume n v).startUp = s.startUp := rfl
@[simp] theorem State.setResume_pins : (s.setResume n v).pins = s.pins := rfl
@[simp] theorem State.setResume_pending : (s.setResume n v).pending = s.pending := rfl
@[simp] theorem State.setResume_slot (k : Nat) : (s.setResume n v).slot k = s.slot k := rfl
@[simp] theorem State.setResume_group_ (k : Nat) : (s.setResume n v).group k = s.group k := rfl

/-- Read after a write of the same record. -/
@[simp] theorem State.setResume_get_same : (s.setResume n v).resumeOf n = v := Table.get_set_same _ _ _ _

theorem State.setResume_get_other {k : Nat} (h : k ≠ n) : (s.setResume n v).resumeOf k = s.resumeOf k := Table.get_set_other _ _ _ h

theorem State.setResume_get (k : Nat) : (s.setResume n v).resumeOf k = if k = n then v else s.resumeOf k := Table.get_set _ _ _ _ _

/-- The last of two writes of the same record stands. -/
@[simp] theorem State.setResume_setResume (w) : (s.setResume n v).setResume n w = s.setResume n w := by
  simp only [State.setResume, Table.set_set]

@[simp] theorem State.setResume_held (k : Nat) : (s.setResume n v).held k = s.held k := rfl
@[simp] theorem State.setResume_tracker (k : Nat) : (s.setResume n v).tracker k = s.tracker k := rfl
@[simp] theorem State.setResume_monitorOf (k : Nat) : (s.setResume n v).monitorOf k = s.monitorOf k := rfl
@[simp] theorem State.setResume_floorEntry (k : Nat) : (s.setResume n v).floorEntry k = s.floorEntry k := rfl
@[simp] theorem State.setResume_effectiveFloor (k : Nat) :
    (s.setResume n v).effectiveFloor k = s.effectiveFloor k := rfl
@[simp] theorem State.setResume_rosterEntry (k : Nat) : (s.setResume n v).rosterEntry k = s.rosterEntry k := rfl
@[simp] theorem State.setResume_linkOf (k : Nat) : (s.setResume n v).linkOf k = s.linkOf k := rfl
@[simp] theorem State.setResume_line (k : Nat) : (s.setResume n v).line k = s.line k := rfl
@[simp] theorem State.setResume_raisedFlags (k : Nat) : (s.setResume n v).raisedFlags k = s.raisedFlags k := rfl
@[simp] theorem State.setResume_program (k : Nat) : (s.setResume n v).program k = s.program k := rfl
@[simp] theorem State.setResume_week (k : Nat) : (s.setResume n v).week k = s.week k := rfl
@[simp] theorem State.setResume_event (k : Nat) : (s.setResume n v).event k = s.event k := rfl
@[simp] theorem State.setResume_forceOf (k : Nat) : (s.setResume n v).forceOf k = s.forceOf k := rfl
@[simp] theorem State.setResume_governing (k : Nat) : (s.setResume n v).governing k = s.governing k := rfl
@[simp] theorem State.setResume_membersOf (k : Nat) : (s.setResume n v).membersOf k = s.membersOf k := rfl
@[simp] theorem State.setResume_sitesOn (k : Nat) : (s.setResume n v).sitesOn k = s.sitesOn k := rfl
@[simp] theorem State.setResume_groupOf (k : Nat) : (s.setResume n v).groupOf k = s.groupOf k := rfl
@[simp] theorem State.setResume_now : (s.setResume n v).now = s.now := rfl
@[simp] theorem State.setResume_isRunning : (s.setResume n v).isRunning = s.isRunning := rfl
@[simp] theorem State.setResume_storing : (s.setResume n v).storing = s.storing := rfl

end

/-! ### `State.setHeld` -/

section
variable (s : State) (n : Nat) (v : Bool)

@[simp] theorem State.setHeld_time : (s.setHeld n v).time = s.time := rfl
@[simp] theorem State.setHeld_retained_cause : (s.setHeld n v).retained.cause = s.retained.cause := rfl
@[simp] theorem State.setHeld_retained_resume : (s.setHeld n v).retained.resume = s.retained.resume := rfl
@[simp] theorem State.setHeld_retained_holds :
    (s.setHeld n v).retained.holds = Table.set false s.retained.holds n v := rfl
@[simp] theorem State.setHeld_library : (s.setHeld n v).library = s.library := rfl
@[simp] theorem State.setHeld_resolver : (s.setHeld n v).resolver = s.resolver := rfl
@[simp] theorem State.setHeld_groups : (s.setHeld n v).groups = s.groups := rfl
@[simp] theorem State.setHeld_trackers : (s.setHeld n v).trackers = s.trackers := rfl
@[simp] theorem State.setHeld_monitor : (s.setHeld n v).monitor = s.monitor := rfl
@[simp] theorem State.setHeld_floors : (s.setHeld n v).floors = s.floors := rfl
@[simp] theorem State.setHeld_roster : (s.setHeld n v).roster = s.roster := rfl
@[simp] theorem State.setHeld_links : (s.setHeld n v).links = s.links := rfl
@[simp] theorem State.setHeld_lines : (s.setHeld n v).lines = s.lines := rfl
@[simp] theorem State.setHeld_handed : (s.setHeld n v).handed = s.handed := rfl
@[simp] theorem State.setHeld_flags : (s.setHeld n v).flags = s.flags := rfl
@[simp] theorem State.setHeld_link : (s.setHeld n v).link = s.link := rfl
@[simp] theorem State.setHeld_store : (s.setHeld n v).store = s.store := rfl
@[simp] theorem State.setHeld_startUp : (s.setHeld n v).startUp = s.startUp := rfl
@[simp] theorem State.setHeld_pins : (s.setHeld n v).pins = s.pins := rfl
@[simp] theorem State.setHeld_pending : (s.setHeld n v).pending = s.pending := rfl
@[simp] theorem State.setHeld_slot (k : Nat) : (s.setHeld n v).slot k = s.slot k := rfl
@[simp] theorem State.setHeld_group_ (k : Nat) : (s.setHeld n v).group k = s.group k := rfl
@[simp] theorem State.setHeld_resumeOf (k : Nat) : (s.setHeld n v).resumeOf k = s.resumeOf k := rfl

/-- Read after a write of the same record. -/
@[simp] theorem State.setHeld_get_same : (s.setHeld n v).held n = v := Table.get_set_same _ _ _ _

theorem State.setHeld_get_other {k : Nat} (h : k ≠ n) : (s.setHeld n v).held k = s.held k := Table.get_set_other _ _ _ h

theorem State.setHeld_get (k : Nat) : (s.setHeld n v).held k = if k = n then v else s.held k := Table.get_set _ _ _ _ _

/-- The last of two writes of the same record stands. -/
@[simp] theorem State.setHeld_setHeld (w) : (s.setHeld n v).setHeld n w = s.setHeld n w := by
  simp only [State.setHeld, Table.set_set]

@[simp] theorem State.setHeld_tracker (k : Nat) : (s.setHeld n v).tracker k = s.tracker k := rfl
@[simp] theorem State.setHeld_monitorOf (k : Nat) : (s.setHeld n v).monitorOf k = s.monitorOf k := rfl
@[simp] theorem State.setHeld_floorEntry (k : Nat) : (s.setHeld n v).floorEntry k = s.floorEntry k := rfl
@[simp] theorem State.setHeld_effectiveFloor (k : Nat) : (s.setHeld n v).effectiveFloor k = s.effectiveFloor k := rfl
@[simp] theorem State.setHeld_rosterEntry (k : Nat) : (s.setHeld n v).rosterEntry k = s.rosterEntry k := rfl
@[simp] theorem State.setHeld_linkOf (k : Nat) : (s.setHeld n v).linkOf k = s.linkOf k := rfl
@[simp] theorem State.setHeld_line (k : Nat) : (s.setHeld n v).line k = s.line k := rfl
@[simp] theorem State.setHeld_raisedFlags (k : Nat) : (s.setHeld n v).raisedFlags k = s.raisedFlags k := rfl
@[simp] theorem State.setHeld_program (k : Nat) : (s.setHeld n v).program k = s.program k := rfl
@[simp] theorem State.setHeld_week (k : Nat) : (s.setHeld n v).week k = s.week k := rfl
@[simp] theorem State.setHeld_event (k : Nat) : (s.setHeld n v).event k = s.event k := rfl
@[simp] theorem State.setHeld_forceOf (k : Nat) : (s.setHeld n v).forceOf k = s.forceOf k := rfl
@[simp] theorem State.setHeld_governing (k : Nat) : (s.setHeld n v).governing k = s.governing k := rfl
@[simp] theorem State.setHeld_membersOf (k : Nat) : (s.setHeld n v).membersOf k = s.membersOf k := rfl
@[simp] theorem State.setHeld_sitesOn (k : Nat) : (s.setHeld n v).sitesOn k = s.sitesOn k := rfl
@[simp] theorem State.setHeld_groupOf (k : Nat) : (s.setHeld n v).groupOf k = s.groupOf k := rfl
@[simp] theorem State.setHeld_now : (s.setHeld n v).now = s.now := rfl
@[simp] theorem State.setHeld_isRunning : (s.setHeld n v).isRunning = s.isRunning := rfl
@[simp] theorem State.setHeld_storing : (s.setHeld n v).storing = s.storing := rfl

end

/-! ### `State.setTracker` -/

section
variable (s : State) (n : Nat) (v : Tracker)

@[simp] theorem State.setTracker_time : (s.setTracker n v).time = s.time := rfl
@[simp] theorem State.setTracker_retained : (s.setTracker n v).retained = s.retained := rfl
@[simp] theorem State.setTracker_library : (s.setTracker n v).library = s.library := rfl
@[simp] theorem State.setTracker_resolver : (s.setTracker n v).resolver = s.resolver := rfl
@[simp] theorem State.setTracker_groups : (s.setTracker n v).groups = s.groups := rfl
@[simp] theorem State.setTracker_trackers :
    (s.setTracker n v).trackers = Table.set Tracker.reset s.trackers n v := rfl
@[simp] theorem State.setTracker_monitor : (s.setTracker n v).monitor = s.monitor := rfl
@[simp] theorem State.setTracker_floors : (s.setTracker n v).floors = s.floors := rfl
@[simp] theorem State.setTracker_roster : (s.setTracker n v).roster = s.roster := rfl
@[simp] theorem State.setTracker_links : (s.setTracker n v).links = s.links := rfl
@[simp] theorem State.setTracker_lines : (s.setTracker n v).lines = s.lines := rfl
@[simp] theorem State.setTracker_handed : (s.setTracker n v).handed = s.handed := rfl
@[simp] theorem State.setTracker_flags : (s.setTracker n v).flags = s.flags := rfl
@[simp] theorem State.setTracker_link : (s.setTracker n v).link = s.link := rfl
@[simp] theorem State.setTracker_store : (s.setTracker n v).store = s.store := rfl
@[simp] theorem State.setTracker_startUp : (s.setTracker n v).startUp = s.startUp := rfl
@[simp] theorem State.setTracker_pins : (s.setTracker n v).pins = s.pins := rfl
@[simp] theorem State.setTracker_pending : (s.setTracker n v).pending = s.pending := rfl
@[simp] theorem State.setTracker_slot (k : Nat) : (s.setTracker n v).slot k = s.slot k := rfl
@[simp] theorem State.setTracker_group_ (k : Nat) : (s.setTracker n v).group k = s.group k := rfl
@[simp] theorem State.setTracker_resumeOf (k : Nat) : (s.setTracker n v).resumeOf k = s.resumeOf k := rfl
@[simp] theorem State.setTracker_held (k : Nat) : (s.setTracker n v).held k = s.held k := rfl

/-- Read after a write of the same record. -/
@[simp] theorem State.setTracker_get_same : (s.setTracker n v).tracker n = v := Table.get_set_same _ _ _ _

theorem State.setTracker_get_other {k : Nat} (h : k ≠ n) : (s.setTracker n v).tracker k = s.tracker k := Table.get_set_other _ _ _ h

theorem State.setTracker_get (k : Nat) : (s.setTracker n v).tracker k = if k = n then v else s.tracker k := Table.get_set _ _ _ _ _

/-- The last of two writes of the same record stands. -/
@[simp] theorem State.setTracker_setTracker (w) : (s.setTracker n v).setTracker n w = s.setTracker n w := by
  simp only [State.setTracker, Table.set_set]

@[simp] theorem State.setTracker_monitorOf (k : Nat) : (s.setTracker n v).monitorOf k = s.monitorOf k := rfl
@[simp] theorem State.setTracker_floorEntry (k : Nat) : (s.setTracker n v).floorEntry k = s.floorEntry k := rfl
@[simp] theorem State.setTracker_effectiveFloor (k : Nat) :
    (s.setTracker n v).effectiveFloor k = s.effectiveFloor k := rfl
@[simp] theorem State.setTracker_rosterEntry (k : Nat) : (s.setTracker n v).rosterEntry k = s.rosterEntry k := rfl
@[simp] theorem State.setTracker_linkOf (k : Nat) : (s.setTracker n v).linkOf k = s.linkOf k := rfl
@[simp] theorem State.setTracker_line (k : Nat) : (s.setTracker n v).line k = s.line k := rfl
@[simp] theorem State.setTracker_raisedFlags (k : Nat) : (s.setTracker n v).raisedFlags k = s.raisedFlags k := rfl
@[simp] theorem State.setTracker_program (k : Nat) : (s.setTracker n v).program k = s.program k := rfl
@[simp] theorem State.setTracker_week (k : Nat) : (s.setTracker n v).week k = s.week k := rfl
@[simp] theorem State.setTracker_event (k : Nat) : (s.setTracker n v).event k = s.event k := rfl
@[simp] theorem State.setTracker_forceOf (k : Nat) : (s.setTracker n v).forceOf k = s.forceOf k := rfl
@[simp] theorem State.setTracker_governing (k : Nat) : (s.setTracker n v).governing k = s.governing k := rfl
@[simp] theorem State.setTracker_membersOf (k : Nat) : (s.setTracker n v).membersOf k = s.membersOf k := rfl
@[simp] theorem State.setTracker_sitesOn (k : Nat) : (s.setTracker n v).sitesOn k = s.sitesOn k := rfl
@[simp] theorem State.setTracker_groupOf (k : Nat) : (s.setTracker n v).groupOf k = s.groupOf k := rfl
@[simp] theorem State.setTracker_now : (s.setTracker n v).now = s.now := rfl
@[simp] theorem State.setTracker_isRunning : (s.setTracker n v).isRunning = s.isRunning := rfl
@[simp] theorem State.setTracker_storing : (s.setTracker n v).storing = s.storing := rfl

end

/-! ### `State.setMonitor` -/

section
variable (s : State) (n : Nat) (v : MonitorRecord)

@[simp] theorem State.setMonitor_time : (s.setMonitor n v).time = s.time := rfl
@[simp] theorem State.setMonitor_retained : (s.setMonitor n v).retained = s.retained := rfl
@[simp] theorem State.setMonitor_library : (s.setMonitor n v).library = s.library := rfl
@[simp] theorem State.setMonitor_resolver : (s.setMonitor n v).resolver = s.resolver := rfl
@[simp] theorem State.setMonitor_groups : (s.setMonitor n v).groups = s.groups := rfl
@[simp] theorem State.setMonitor_trackers : (s.setMonitor n v).trackers = s.trackers := rfl
@[simp] theorem State.setMonitor_monitor_records :
    (s.setMonitor n v).monitor.records = Table.set MonitorRecord.reset s.monitor.records n v := rfl
@[simp] theorem State.setMonitor_monitor_tolerance : (s.setMonitor n v).monitor.tolerance = s.monitor.tolerance := rfl
@[simp] theorem State.setMonitor_monitor_limitCode : (s.setMonitor n v).monitor.limitCode = s.monitor.limitCode := rfl
@[simp] theorem State.setMonitor_monitor_watched : (s.setMonitor n v).monitor.watched = s.monitor.watched := rfl
@[simp] theorem State.setMonitor_monitor_zeros : (s.setMonitor n v).monitor.zeros = s.monitor.zeros := rfl
@[simp] theorem State.setMonitor_floors : (s.setMonitor n v).floors = s.floors := rfl
@[simp] theorem State.setMonitor_roster : (s.setMonitor n v).roster = s.roster := rfl
@[simp] theorem State.setMonitor_links : (s.setMonitor n v).links = s.links := rfl
@[simp] theorem State.setMonitor_lines : (s.setMonitor n v).lines = s.lines := rfl
@[simp] theorem State.setMonitor_handed : (s.setMonitor n v).handed = s.handed := rfl
@[simp] theorem State.setMonitor_flags : (s.setMonitor n v).flags = s.flags := rfl
@[simp] theorem State.setMonitor_link : (s.setMonitor n v).link = s.link := rfl
@[simp] theorem State.setMonitor_store : (s.setMonitor n v).store = s.store := rfl
@[simp] theorem State.setMonitor_startUp : (s.setMonitor n v).startUp = s.startUp := rfl
@[simp] theorem State.setMonitor_pins : (s.setMonitor n v).pins = s.pins := rfl
@[simp] theorem State.setMonitor_pending : (s.setMonitor n v).pending = s.pending := rfl
@[simp] theorem State.setMonitor_slot (k : Nat) : (s.setMonitor n v).slot k = s.slot k := rfl
@[simp] theorem State.setMonitor_group_ (k : Nat) : (s.setMonitor n v).group k = s.group k := rfl
@[simp] theorem State.setMonitor_resumeOf (k : Nat) : (s.setMonitor n v).resumeOf k = s.resumeOf k := rfl
@[simp] theorem State.setMonitor_held (k : Nat) : (s.setMonitor n v).held k = s.held k := rfl
@[simp] theorem State.setMonitor_tracker (k : Nat) : (s.setMonitor n v).tracker k = s.tracker k := rfl

/-- Read after a write of the same record. -/
@[simp] theorem State.setMonitor_get_same : (s.setMonitor n v).monitorOf n = v := Table.get_set_same _ _ _ _

theorem State.setMonitor_get_other {k : Nat} (h : k ≠ n) : (s.setMonitor n v).monitorOf k = s.monitorOf k := Table.get_set_other _ _ _ h

theorem State.setMonitor_get (k : Nat) : (s.setMonitor n v).monitorOf k = if k = n then v else s.monitorOf k := Table.get_set _ _ _ _ _

/-- The last of two writes of the same record stands. -/
@[simp] theorem State.setMonitor_setMonitor (w) : (s.setMonitor n v).setMonitor n w = s.setMonitor n w := by
  simp only [State.setMonitor, Table.set_set]

@[simp] theorem State.setMonitor_floorEntry (k : Nat) : (s.setMonitor n v).floorEntry k = s.floorEntry k := rfl
@[simp] theorem State.setMonitor_effectiveFloor (k : Nat) :
    (s.setMonitor n v).effectiveFloor k = s.effectiveFloor k := rfl
@[simp] theorem State.setMonitor_rosterEntry (k : Nat) : (s.setMonitor n v).rosterEntry k = s.rosterEntry k := rfl
@[simp] theorem State.setMonitor_linkOf (k : Nat) : (s.setMonitor n v).linkOf k = s.linkOf k := rfl
@[simp] theorem State.setMonitor_line (k : Nat) : (s.setMonitor n v).line k = s.line k := rfl
@[simp] theorem State.setMonitor_raisedFlags (k : Nat) : (s.setMonitor n v).raisedFlags k = s.raisedFlags k := rfl
@[simp] theorem State.setMonitor_program (k : Nat) : (s.setMonitor n v).program k = s.program k := rfl
@[simp] theorem State.setMonitor_week (k : Nat) : (s.setMonitor n v).week k = s.week k := rfl
@[simp] theorem State.setMonitor_event (k : Nat) : (s.setMonitor n v).event k = s.event k := rfl
@[simp] theorem State.setMonitor_forceOf (k : Nat) : (s.setMonitor n v).forceOf k = s.forceOf k := rfl
@[simp] theorem State.setMonitor_governing (k : Nat) : (s.setMonitor n v).governing k = s.governing k := rfl
@[simp] theorem State.setMonitor_membersOf (k : Nat) : (s.setMonitor n v).membersOf k = s.membersOf k := rfl
@[simp] theorem State.setMonitor_sitesOn (k : Nat) : (s.setMonitor n v).sitesOn k = s.sitesOn k := rfl
@[simp] theorem State.setMonitor_groupOf (k : Nat) : (s.setMonitor n v).groupOf k = s.groupOf k := rfl
@[simp] theorem State.setMonitor_now : (s.setMonitor n v).now = s.now := rfl
@[simp] theorem State.setMonitor_isRunning : (s.setMonitor n v).isRunning = s.isRunning := rfl
@[simp] theorem State.setMonitor_storing : (s.setMonitor n v).storing = s.storing := rfl

end

/-! ### `State.setFloorEntry` -/

section
variable (s : State) (n : Nat) (v : FloorEntry)

@[simp] theorem State.setFloorEntry_time : (s.setFloorEntry n v).time = s.time := rfl
@[simp] theorem State.setFloorEntry_retained : (s.setFloorEntry n v).retained = s.retained := rfl
@[simp] theorem State.setFloorEntry_library : (s.setFloorEntry n v).library = s.library := rfl
@[simp] theorem State.setFloorEntry_resolver : (s.setFloorEntry n v).resolver = s.resolver := rfl
@[simp] theorem State.setFloorEntry_groups : (s.setFloorEntry n v).groups = s.groups := rfl
@[simp] theorem State.setFloorEntry_trackers : (s.setFloorEntry n v).trackers = s.trackers := rfl
@[simp] theorem State.setFloorEntry_monitor : (s.setFloorEntry n v).monitor = s.monitor := rfl
@[simp] theorem State.setFloorEntry_floors_entries :
    (s.setFloorEntry n v).floors.entries = Table.set FloorEntry.blank s.floors.entries n v := rfl
@[simp] theorem State.setFloorEntry_floors_lockMark : (s.setFloorEntry n v).floors.lockMark = s.floors.lockMark := rfl
@[simp] theorem State.setFloorEntry_floors_effective :
    (s.setFloorEntry n v).floors.effective = s.floors.effective := rfl
@[simp] theorem State.setFloorEntry_floors_lockInEffect :
    (s.setFloorEntry n v).floors.lockInEffect = s.floors.lockInEffect := rfl
@[simp] theorem State.setFloorEntry_floors_windowOpen :
    (s.setFloorEntry n v).floors.windowOpen = s.floors.windowOpen := rfl
@[simp] theorem State.setFloorEntry_floors_windowCount :
    (s.setFloorEntry n v).floors.windowCount = s.floors.windowCount := rfl
@[simp] theorem State.setFloorEntry_floors_programmer :
    (s.setFloorEntry n v).floors.programmer = s.floors.programmer := rfl
@[simp] theorem State.setFloorEntry_roster : (s.setFloorEntry n v).roster = s.roster := rfl
@[simp] theorem State.setFloorEntry_links : (s.setFloorEntry n v).links = s.links := rfl
@[simp] theorem State.setFloorEntry_lines : (s.setFloorEntry n v).lines = s.lines := rfl
@[simp] theorem State.setFloorEntry_handed : (s.setFloorEntry n v).handed = s.handed := rfl
@[simp] theorem State.setFloorEntry_flags : (s.setFloorEntry n v).flags = s.flags := rfl
@[simp] theorem State.setFloorEntry_link : (s.setFloorEntry n v).link = s.link := rfl
@[simp] theorem State.setFloorEntry_store : (s.setFloorEntry n v).store = s.store := rfl
@[simp] theorem State.setFloorEntry_startUp : (s.setFloorEntry n v).startUp = s.startUp := rfl
@[simp] theorem State.setFloorEntry_pins : (s.setFloorEntry n v).pins = s.pins := rfl
@[simp] theorem State.setFloorEntry_pending : (s.setFloorEntry n v).pending = s.pending := rfl
@[simp] theorem State.setFloorEntry_slot (k : Nat) : (s.setFloorEntry n v).slot k = s.slot k := rfl
@[simp] theorem State.setFloorEntry_group_ (k : Nat) : (s.setFloorEntry n v).group k = s.group k := rfl
@[simp] theorem State.setFloorEntry_resumeOf (k : Nat) : (s.setFloorEntry n v).resumeOf k = s.resumeOf k := rfl
@[simp] theorem State.setFloorEntry_held (k : Nat) : (s.setFloorEntry n v).held k = s.held k := rfl
@[simp] theorem State.setFloorEntry_tracker (k : Nat) : (s.setFloorEntry n v).tracker k = s.tracker k := rfl
@[simp] theorem State.setFloorEntry_monitorOf (k : Nat) : (s.setFloorEntry n v).monitorOf k = s.monitorOf k := rfl

/-- Read after a write of the same record. -/
@[simp] theorem State.setFloorEntry_get_same : (s.setFloorEntry n v).floorEntry n = v := Table.get_set_same _ _ _ _

theorem State.setFloorEntry_get_other {k : Nat} (h : k ≠ n) : (s.setFloorEntry n v).floorEntry k = s.floorEntry k := Table.get_set_other _ _ _ h

theorem State.setFloorEntry_get (k : Nat) : (s.setFloorEntry n v).floorEntry k = if k = n then v else s.floorEntry k := Table.get_set _ _ _ _ _

/-- The last of two writes of the same record stands. -/
@[simp] theorem State.setFloorEntry_setFloorEntry (w) : (s.setFloorEntry n v).setFloorEntry n w = s.setFloorEntry n w := by
  simp only [State.setFloorEntry, Table.set_set]

@[simp] theorem State.setFloorEntry_effectiveFloor (k : Nat) :
    (s.setFloorEntry n v).effectiveFloor k = s.effectiveFloor k := rfl
@[simp] theorem State.setFloorEntry_rosterEntry (k : Nat) :
    (s.setFloorEntry n v).rosterEntry k = s.rosterEntry k := rfl
@[simp] theorem State.setFloorEntry_linkOf (k : Nat) : (s.setFloorEntry n v).linkOf k = s.linkOf k := rfl
@[simp] theorem State.setFloorEntry_line (k : Nat) : (s.setFloorEntry n v).line k = s.line k := rfl
@[simp] theorem State.setFloorEntry_raisedFlags (k : Nat) :
    (s.setFloorEntry n v).raisedFlags k = s.raisedFlags k := rfl
@[simp] theorem State.setFloorEntry_program (k : Nat) : (s.setFloorEntry n v).program k = s.program k := rfl
@[simp] theorem State.setFloorEntry_week (k : Nat) : (s.setFloorEntry n v).week k = s.week k := rfl
@[simp] theorem State.setFloorEntry_event (k : Nat) : (s.setFloorEntry n v).event k = s.event k := rfl
@[simp] theorem State.setFloorEntry_forceOf (k : Nat) : (s.setFloorEntry n v).forceOf k = s.forceOf k := rfl
@[simp] theorem State.setFloorEntry_governing (k : Nat) : (s.setFloorEntry n v).governing k = s.governing k := rfl
@[simp] theorem State.setFloorEntry_membersOf (k : Nat) : (s.setFloorEntry n v).membersOf k = s.membersOf k := rfl
@[simp] theorem State.setFloorEntry_sitesOn (k : Nat) : (s.setFloorEntry n v).sitesOn k = s.sitesOn k := rfl
@[simp] theorem State.setFloorEntry_groupOf (k : Nat) : (s.setFloorEntry n v).groupOf k = s.groupOf k := rfl
@[simp] theorem State.setFloorEntry_now : (s.setFloorEntry n v).now = s.now := rfl
@[simp] theorem State.setFloorEntry_isRunning : (s.setFloorEntry n v).isRunning = s.isRunning := rfl
@[simp] theorem State.setFloorEntry_storing : (s.setFloorEntry n v).storing = s.storing := rfl

end

/-! ### `State.setRosterEntry` -/

section
variable (s : State) (n : Nat) (v : Option RosterEntry)

@[simp] theorem State.setRosterEntry_time : (s.setRosterEntry n v).time = s.time := rfl
@[simp] theorem State.setRosterEntry_retained : (s.setRosterEntry n v).retained = s.retained := rfl
@[simp] theorem State.setRosterEntry_library : (s.setRosterEntry n v).library = s.library := rfl
@[simp] theorem State.setRosterEntry_resolver : (s.setRosterEntry n v).resolver = s.resolver := rfl
@[simp] theorem State.setRosterEntry_groups : (s.setRosterEntry n v).groups = s.groups := rfl
@[simp] theorem State.setRosterEntry_trackers : (s.setRosterEntry n v).trackers = s.trackers := rfl
@[simp] theorem State.setRosterEntry_monitor : (s.setRosterEntry n v).monitor = s.monitor := rfl
@[simp] theorem State.setRosterEntry_floors : (s.setRosterEntry n v).floors = s.floors := rfl
@[simp] theorem State.setRosterEntry_roster : (s.setRosterEntry n v).roster = Table.set none s.roster n v := rfl
@[simp] theorem State.setRosterEntry_links : (s.setRosterEntry n v).links = s.links := rfl
@[simp] theorem State.setRosterEntry_lines : (s.setRosterEntry n v).lines = s.lines := rfl
@[simp] theorem State.setRosterEntry_handed : (s.setRosterEntry n v).handed = s.handed := rfl
@[simp] theorem State.setRosterEntry_flags : (s.setRosterEntry n v).flags = s.flags := rfl
@[simp] theorem State.setRosterEntry_link : (s.setRosterEntry n v).link = s.link := rfl
@[simp] theorem State.setRosterEntry_store : (s.setRosterEntry n v).store = s.store := rfl
@[simp] theorem State.setRosterEntry_startUp : (s.setRosterEntry n v).startUp = s.startUp := rfl
@[simp] theorem State.setRosterEntry_pins : (s.setRosterEntry n v).pins = s.pins := rfl
@[simp] theorem State.setRosterEntry_pending : (s.setRosterEntry n v).pending = s.pending := rfl
@[simp] theorem State.setRosterEntry_slot (k : Nat) : (s.setRosterEntry n v).slot k = s.slot k := rfl
@[simp] theorem State.setRosterEntry_group_ (k : Nat) : (s.setRosterEntry n v).group k = s.group k := rfl
@[simp] theorem State.setRosterEntry_resumeOf (k : Nat) : (s.setRosterEntry n v).resumeOf k = s.resumeOf k := rfl
@[simp] theorem State.setRosterEntry_held (k : Nat) : (s.setRosterEntry n v).held k = s.held k := rfl
@[simp] theorem State.setRosterEntry_tracker (k : Nat) : (s.setRosterEntry n v).tracker k = s.tracker k := rfl
@[simp] theorem State.setRosterEntry_monitorOf (k : Nat) : (s.setRosterEntry n v).monitorOf k = s.monitorOf k := rfl
@[simp] theorem State.setRosterEntry_floorEntry (k : Nat) :
    (s.setRosterEntry n v).floorEntry k = s.floorEntry k := rfl
@[simp] theorem State.setRosterEntry_effectiveFloor (k : Nat) :
    (s.setRosterEntry n v).effectiveFloor k = s.effectiveFloor k := rfl

/-- Read after a write of the same record. -/
@[simp] theorem State.setRosterEntry_get_same : (s.setRosterEntry n v).rosterEntry n = v := Table.get_set_same _ _ _ _

theorem State.setRosterEntry_get_other {k : Nat} (h : k ≠ n) : (s.setRosterEntry n v).rosterEntry k = s.rosterEntry k := Table.get_set_other _ _ _ h

theorem State.setRosterEntry_get (k : Nat) : (s.setRosterEntry n v).rosterEntry k = if k = n then v else s.rosterEntry k := Table.get_set _ _ _ _ _

/-- The last of two writes of the same record stands. -/
@[simp] theorem State.setRosterEntry_setRosterEntry (w) : (s.setRosterEntry n v).setRosterEntry n w = s.setRosterEntry n w := by
  simp only [State.setRosterEntry, Table.set_set]

@[simp] theorem State.setRosterEntry_linkOf (k : Nat) : (s.setRosterEntry n v).linkOf k = s.linkOf k := rfl
@[simp] theorem State.setRosterEntry_line (k : Nat) : (s.setRosterEntry n v).line k = s.line k := rfl
@[simp] theorem State.setRosterEntry_raisedFlags (k : Nat) :
    (s.setRosterEntry n v).raisedFlags k = s.raisedFlags k := rfl
@[simp] theorem State.setRosterEntry_program (k : Nat) : (s.setRosterEntry n v).program k = s.program k := rfl
@[simp] theorem State.setRosterEntry_week (k : Nat) : (s.setRosterEntry n v).week k = s.week k := rfl
@[simp] theorem State.setRosterEntry_event (k : Nat) : (s.setRosterEntry n v).event k = s.event k := rfl
@[simp] theorem State.setRosterEntry_forceOf (k : Nat) : (s.setRosterEntry n v).forceOf k = s.forceOf k := rfl
@[simp] theorem State.setRosterEntry_governing (k : Nat) : (s.setRosterEntry n v).governing k = s.governing k := rfl
@[simp] theorem State.setRosterEntry_now : (s.setRosterEntry n v).now = s.now := rfl
@[simp] theorem State.setRosterEntry_isRunning : (s.setRosterEntry n v).isRunning = s.isRunning := rfl
@[simp] theorem State.setRosterEntry_storing : (s.setRosterEntry n v).storing = s.storing := rfl

end

/-! ### `State.setLinkOf` -/

section
variable (s : State) (n : Nat) (v : LinkRecord)

@[simp] theorem State.setLinkOf_time : (s.setLinkOf n v).time = s.time := rfl
@[simp] theorem State.setLinkOf_retained : (s.setLinkOf n v).retained = s.retained := rfl
@[simp] theorem State.setLinkOf_library : (s.setLinkOf n v).library = s.library := rfl
@[simp] theorem State.setLinkOf_resolver : (s.setLinkOf n v).resolver = s.resolver := rfl
@[simp] theorem State.setLinkOf_groups : (s.setLinkOf n v).groups = s.groups := rfl
@[simp] theorem State.setLinkOf_trackers : (s.setLinkOf n v).trackers = s.trackers := rfl
@[simp] theorem State.setLinkOf_monitor : (s.setLinkOf n v).monitor = s.monitor := rfl
@[simp] theorem State.setLinkOf_floors : (s.setLinkOf n v).floors = s.floors := rfl
@[simp] theorem State.setLinkOf_roster : (s.setLinkOf n v).roster = s.roster := rfl
@[simp] theorem State.setLinkOf_links : (s.setLinkOf n v).links = Table.set LinkRecord.reset s.links n v := rfl
@[simp] theorem State.setLinkOf_lines : (s.setLinkOf n v).lines = s.lines := rfl
@[simp] theorem State.setLinkOf_handed : (s.setLinkOf n v).handed = s.handed := rfl
@[simp] theorem State.setLinkOf_flags : (s.setLinkOf n v).flags = s.flags := rfl
@[simp] theorem State.setLinkOf_link : (s.setLinkOf n v).link = s.link := rfl
@[simp] theorem State.setLinkOf_store : (s.setLinkOf n v).store = s.store := rfl
@[simp] theorem State.setLinkOf_startUp : (s.setLinkOf n v).startUp = s.startUp := rfl
@[simp] theorem State.setLinkOf_pins : (s.setLinkOf n v).pins = s.pins := rfl
@[simp] theorem State.setLinkOf_pending : (s.setLinkOf n v).pending = s.pending := rfl
@[simp] theorem State.setLinkOf_slot (k : Nat) : (s.setLinkOf n v).slot k = s.slot k := rfl
@[simp] theorem State.setLinkOf_group_ (k : Nat) : (s.setLinkOf n v).group k = s.group k := rfl
@[simp] theorem State.setLinkOf_resumeOf (k : Nat) : (s.setLinkOf n v).resumeOf k = s.resumeOf k := rfl
@[simp] theorem State.setLinkOf_held (k : Nat) : (s.setLinkOf n v).held k = s.held k := rfl
@[simp] theorem State.setLinkOf_tracker (k : Nat) : (s.setLinkOf n v).tracker k = s.tracker k := rfl
@[simp] theorem State.setLinkOf_monitorOf (k : Nat) : (s.setLinkOf n v).monitorOf k = s.monitorOf k := rfl
@[simp] theorem State.setLinkOf_floorEntry (k : Nat) : (s.setLinkOf n v).floorEntry k = s.floorEntry k := rfl
@[simp] theorem State.setLinkOf_effectiveFloor (k : Nat) :
    (s.setLinkOf n v).effectiveFloor k = s.effectiveFloor k := rfl
@[simp] theorem State.setLinkOf_rosterEntry (k : Nat) : (s.setLinkOf n v).rosterEntry k = s.rosterEntry k := rfl

/-- Read after a write of the same record. -/
@[simp] theorem State.setLinkOf_get_same : (s.setLinkOf n v).linkOf n = v := Table.get_set_same _ _ _ _

theorem State.setLinkOf_get_other {k : Nat} (h : k ≠ n) : (s.setLinkOf n v).linkOf k = s.linkOf k := Table.get_set_other _ _ _ h

theorem State.setLinkOf_get (k : Nat) : (s.setLinkOf n v).linkOf k = if k = n then v else s.linkOf k := Table.get_set _ _ _ _ _

/-- The last of two writes of the same record stands. -/
@[simp] theorem State.setLinkOf_setLinkOf (w) : (s.setLinkOf n v).setLinkOf n w = s.setLinkOf n w := by
  simp only [State.setLinkOf, Table.set_set]

@[simp] theorem State.setLinkOf_line (k : Nat) : (s.setLinkOf n v).line k = s.line k := rfl
@[simp] theorem State.setLinkOf_raisedFlags (k : Nat) : (s.setLinkOf n v).raisedFlags k = s.raisedFlags k := rfl
@[simp] theorem State.setLinkOf_program (k : Nat) : (s.setLinkOf n v).program k = s.program k := rfl
@[simp] theorem State.setLinkOf_week (k : Nat) : (s.setLinkOf n v).week k = s.week k := rfl
@[simp] theorem State.setLinkOf_event (k : Nat) : (s.setLinkOf n v).event k = s.event k := rfl
@[simp] theorem State.setLinkOf_forceOf (k : Nat) : (s.setLinkOf n v).forceOf k = s.forceOf k := rfl
@[simp] theorem State.setLinkOf_governing (k : Nat) : (s.setLinkOf n v).governing k = s.governing k := rfl
@[simp] theorem State.setLinkOf_membersOf (k : Nat) : (s.setLinkOf n v).membersOf k = s.membersOf k := rfl
@[simp] theorem State.setLinkOf_sitesOn (k : Nat) : (s.setLinkOf n v).sitesOn k = s.sitesOn k := rfl
@[simp] theorem State.setLinkOf_groupOf (k : Nat) : (s.setLinkOf n v).groupOf k = s.groupOf k := rfl
@[simp] theorem State.setLinkOf_now : (s.setLinkOf n v).now = s.now := rfl
@[simp] theorem State.setLinkOf_isRunning : (s.setLinkOf n v).isRunning = s.isRunning := rfl
@[simp] theorem State.setLinkOf_storing : (s.setLinkOf n v).storing = s.storing := rfl

end

/-! ### `State.setLine` -/

section
variable (s : State) (n : Nat) (v : Line)

@[simp] theorem State.setLine_time : (s.setLine n v).time = s.time := rfl
@[simp] theorem State.setLine_retained : (s.setLine n v).retained = s.retained := rfl
@[simp] theorem State.setLine_library : (s.setLine n v).library = s.library := rfl
@[simp] theorem State.setLine_resolver : (s.setLine n v).resolver = s.resolver := rfl
@[simp] theorem State.setLine_groups : (s.setLine n v).groups = s.groups := rfl
@[simp] theorem State.setLine_trackers : (s.setLine n v).trackers = s.trackers := rfl
@[simp] theorem State.setLine_monitor : (s.setLine n v).monitor = s.monitor := rfl
@[simp] theorem State.setLine_floors : (s.setLine n v).floors = s.floors := rfl
@[simp] theorem State.setLine_roster : (s.setLine n v).roster = s.roster := rfl
@[simp] theorem State.setLine_links : (s.setLine n v).links = s.links := rfl
@[simp] theorem State.setLine_lines : (s.setLine n v).lines = Table.set Line.reset s.lines n v := rfl
@[simp] theorem State.setLine_handed : (s.setLine n v).handed = s.handed := rfl
@[simp] theorem State.setLine_flags : (s.setLine n v).flags = s.flags := rfl
@[simp] theorem State.setLine_link : (s.setLine n v).link = s.link := rfl
@[simp] theorem State.setLine_store : (s.setLine n v).store = s.store := rfl
@[simp] theorem State.setLine_startUp : (s.setLine n v).startUp = s.startUp := rfl
@[simp] theorem State.setLine_pins : (s.setLine n v).pins = s.pins := rfl
@[simp] theorem State.setLine_pending : (s.setLine n v).pending = s.pending := rfl
@[simp] theorem State.setLine_slot (k : Nat) : (s.setLine n v).slot k = s.slot k := rfl
@[simp] theorem State.setLine_group_ (k : Nat) : (s.setLine n v).group k = s.group k := rfl
@[simp] theorem State.setLine_resumeOf (k : Nat) : (s.setLine n v).resumeOf k = s.resumeOf k := rfl
@[simp] theorem State.setLine_held (k : Nat) : (s.setLine n v).held k = s.held k := rfl
@[simp] theorem State.setLine_tracker (k : Nat) : (s.setLine n v).tracker k = s.tracker k := rfl
@[simp] theorem State.setLine_monitorOf (k : Nat) : (s.setLine n v).monitorOf k = s.monitorOf k := rfl
@[simp] theorem State.setLine_floorEntry (k : Nat) : (s.setLine n v).floorEntry k = s.floorEntry k := rfl
@[simp] theorem State.setLine_effectiveFloor (k : Nat) : (s.setLine n v).effectiveFloor k = s.effectiveFloor k := rfl
@[simp] theorem State.setLine_rosterEntry (k : Nat) : (s.setLine n v).rosterEntry k = s.rosterEntry k := rfl
@[simp] theorem State.setLine_linkOf (k : Nat) : (s.setLine n v).linkOf k = s.linkOf k := rfl

/-- Read after a write of the same record. -/
@[simp] theorem State.setLine_get_same : (s.setLine n v).line n = v := Table.get_set_same _ _ _ _

theorem State.setLine_get_other {k : Nat} (h : k ≠ n) : (s.setLine n v).line k = s.line k := Table.get_set_other _ _ _ h

theorem State.setLine_get (k : Nat) : (s.setLine n v).line k = if k = n then v else s.line k := Table.get_set _ _ _ _ _

/-- The last of two writes of the same record stands. -/
@[simp] theorem State.setLine_setLine (w) : (s.setLine n v).setLine n w = s.setLine n w := by
  simp only [State.setLine, Table.set_set]

@[simp] theorem State.setLine_raisedFlags (k : Nat) : (s.setLine n v).raisedFlags k = s.raisedFlags k := rfl
@[simp] theorem State.setLine_program (k : Nat) : (s.setLine n v).program k = s.program k := rfl
@[simp] theorem State.setLine_week (k : Nat) : (s.setLine n v).week k = s.week k := rfl
@[simp] theorem State.setLine_event (k : Nat) : (s.setLine n v).event k = s.event k := rfl
@[simp] theorem State.setLine_forceOf (k : Nat) : (s.setLine n v).forceOf k = s.forceOf k := rfl
@[simp] theorem State.setLine_governing (k : Nat) : (s.setLine n v).governing k = s.governing k := rfl
@[simp] theorem State.setLine_membersOf (k : Nat) : (s.setLine n v).membersOf k = s.membersOf k := rfl
@[simp] theorem State.setLine_sitesOn (k : Nat) : (s.setLine n v).sitesOn k = s.sitesOn k := rfl
@[simp] theorem State.setLine_groupOf (k : Nat) : (s.setLine n v).groupOf k = s.groupOf k := rfl
@[simp] theorem State.setLine_now : (s.setLine n v).now = s.now := rfl
@[simp] theorem State.setLine_isRunning : (s.setLine n v).isRunning = s.isRunning := rfl
@[simp] theorem State.setLine_storing : (s.setLine n v).storing = s.storing := rfl

end

/-! ### `State.setRaisedFlags` -/

section
variable (s : State) (n : Nat) (v : Byte)

@[simp] theorem State.setRaisedFlags_time : (s.setRaisedFlags n v).time = s.time := rfl
@[simp] theorem State.setRaisedFlags_retained : (s.setRaisedFlags n v).retained = s.retained := rfl
@[simp] theorem State.setRaisedFlags_library : (s.setRaisedFlags n v).library = s.library := rfl
@[simp] theorem State.setRaisedFlags_resolver : (s.setRaisedFlags n v).resolver = s.resolver := rfl
@[simp] theorem State.setRaisedFlags_groups : (s.setRaisedFlags n v).groups = s.groups := rfl
@[simp] theorem State.setRaisedFlags_trackers : (s.setRaisedFlags n v).trackers = s.trackers := rfl
@[simp] theorem State.setRaisedFlags_monitor : (s.setRaisedFlags n v).monitor = s.monitor := rfl
@[simp] theorem State.setRaisedFlags_floors : (s.setRaisedFlags n v).floors = s.floors := rfl
@[simp] theorem State.setRaisedFlags_roster : (s.setRaisedFlags n v).roster = s.roster := rfl
@[simp] theorem State.setRaisedFlags_links : (s.setRaisedFlags n v).links = s.links := rfl
@[simp] theorem State.setRaisedFlags_lines : (s.setRaisedFlags n v).lines = s.lines := rfl
@[simp] theorem State.setRaisedFlags_handed : (s.setRaisedFlags n v).handed = s.handed := rfl
@[simp] theorem State.setRaisedFlags_flags_raised :
    (s.setRaisedFlags n v).flags.raised = Table.set 0 s.flags.raised n v := rfl
@[simp] theorem State.setRaisedFlags_flags_mask : (s.setRaisedFlags n v).flags.mask = s.flags.mask := rfl
@[simp] theorem State.setRaisedFlags_flags_attn : (s.setRaisedFlags n v).flags.attn = s.flags.attn := rfl
@[simp] theorem State.setRaisedFlags_link : (s.setRaisedFlags n v).link = s.link := rfl
@[simp] theorem State.setRaisedFlags_store : (s.setRaisedFlags n v).store = s.store := rfl
@[simp] theorem State.setRaisedFlags_startUp : (s.setRaisedFlags n v).startUp = s.startUp := rfl
@[simp] theorem State.setRaisedFlags_pins : (s.setRaisedFlags n v).pins = s.pins := rfl
@[simp] theorem State.setRaisedFlags_pending : (s.setRaisedFlags n v).pending = s.pending := rfl
@[simp] theorem State.setRaisedFlags_slot (k : Nat) : (s.setRaisedFlags n v).slot k = s.slot k := rfl
@[simp] theorem State.setRaisedFlags_group_ (k : Nat) : (s.setRaisedFlags n v).group k = s.group k := rfl
@[simp] theorem State.setRaisedFlags_resumeOf (k : Nat) : (s.setRaisedFlags n v).resumeOf k = s.resumeOf k := rfl
@[simp] theorem State.setRaisedFlags_held (k : Nat) : (s.setRaisedFlags n v).held k = s.held k := rfl
@[simp] theorem State.setRaisedFlags_tracker (k : Nat) : (s.setRaisedFlags n v).tracker k = s.tracker k := rfl
@[simp] theorem State.setRaisedFlags_monitorOf (k : Nat) : (s.setRaisedFlags n v).monitorOf k = s.monitorOf k := rfl
@[simp] theorem State.setRaisedFlags_floorEntry (k : Nat) :
    (s.setRaisedFlags n v).floorEntry k = s.floorEntry k := rfl
@[simp] theorem State.setRaisedFlags_effectiveFloor (k : Nat) :
    (s.setRaisedFlags n v).effectiveFloor k = s.effectiveFloor k := rfl
@[simp] theorem State.setRaisedFlags_rosterEntry (k : Nat) :
    (s.setRaisedFlags n v).rosterEntry k = s.rosterEntry k := rfl
@[simp] theorem State.setRaisedFlags_linkOf (k : Nat) : (s.setRaisedFlags n v).linkOf k = s.linkOf k := rfl
@[simp] theorem State.setRaisedFlags_line (k : Nat) : (s.setRaisedFlags n v).line k = s.line k := rfl

/-- Read after a write of the same record. -/
@[simp] theorem State.setRaisedFlags_get_same : (s.setRaisedFlags n v).raisedFlags n = v := Table.get_set_same _ _ _ _

theorem State.setRaisedFlags_get_other {k : Nat} (h : k ≠ n) : (s.setRaisedFlags n v).raisedFlags k = s.raisedFlags k := Table.get_set_other _ _ _ h

theorem State.setRaisedFlags_get (k : Nat) : (s.setRaisedFlags n v).raisedFlags k = if k = n then v else s.raisedFlags k := Table.get_set _ _ _ _ _

/-- The last of two writes of the same record stands. -/
@[simp] theorem State.setRaisedFlags_setRaisedFlags (w) : (s.setRaisedFlags n v).setRaisedFlags n w = s.setRaisedFlags n w := by
  simp only [State.setRaisedFlags, Table.set_set]

@[simp] theorem State.setRaisedFlags_program (k : Nat) : (s.setRaisedFlags n v).program k = s.program k := rfl
@[simp] theorem State.setRaisedFlags_week (k : Nat) : (s.setRaisedFlags n v).week k = s.week k := rfl
@[simp] theorem State.setRaisedFlags_event (k : Nat) : (s.setRaisedFlags n v).event k = s.event k := rfl
@[simp] theorem State.setRaisedFlags_forceOf (k : Nat) : (s.setRaisedFlags n v).forceOf k = s.forceOf k := rfl
@[simp] theorem State.setRaisedFlags_governing (k : Nat) : (s.setRaisedFlags n v).governing k = s.governing k := rfl
@[simp] theorem State.setRaisedFlags_membersOf (k : Nat) : (s.setRaisedFlags n v).membersOf k = s.membersOf k := rfl
@[simp] theorem State.setRaisedFlags_sitesOn (k : Nat) : (s.setRaisedFlags n v).sitesOn k = s.sitesOn k := rfl
@[simp] theorem State.setRaisedFlags_groupOf (k : Nat) : (s.setRaisedFlags n v).groupOf k = s.groupOf k := rfl
@[simp] theorem State.setRaisedFlags_now : (s.setRaisedFlags n v).now = s.now := rfl
@[simp] theorem State.setRaisedFlags_isRunning : (s.setRaisedFlags n v).isRunning = s.isRunning := rfl
@[simp] theorem State.setRaisedFlags_storing : (s.setRaisedFlags n v).storing = s.storing := rfl

end

/-! ### `State.setForce` -/

section
variable (s : State) (n : Nat) (v : Option Force)

@[simp] theorem State.setForce_time : (s.setForce n v).time = s.time := rfl
@[simp] theorem State.setForce_retained : (s.setForce n v).retained = s.retained := rfl
@[simp] theorem State.setForce_library : (s.setForce n v).library = s.library := rfl
@[simp] theorem State.setForce_resolver_programs : (s.setForce n v).resolver.programs = s.resolver.programs := rfl
@[simp] theorem State.setForce_resolver_weeks : (s.setForce n v).resolver.weeks = s.resolver.weeks := rfl
@[simp] theorem State.setForce_resolver_events : (s.setForce n v).resolver.events = s.resolver.events := rfl
@[simp] theorem State.setForce_resolver_sequence : (s.setForce n v).resolver.sequence = s.resolver.sequence := rfl
@[simp] theorem State.setForce_resolver_forces :
    (s.setForce n v).resolver.forces = Table.set none s.resolver.forces n v := rfl
@[simp] theorem State.setForce_resolver_governing : (s.setForce n v).resolver.governing = s.resolver.governing := rfl
@[simp] theorem State.setForce_resolver_owed : (s.setForce n v).resolver.owed = s.resolver.owed := rfl
@[simp] theorem State.setForce_groups : (s.setForce n v).groups = s.groups := rfl
@[simp] theorem State.setForce_trackers : (s.setForce n v).trackers = s.trackers := rfl
@[simp] theorem State.setForce_monitor : (s.setForce n v).monitor = s.monitor := rfl
@[simp] theorem State.setForce_floors : (s.setForce n v).floors = s.floors := rfl
@[simp] theorem State.setForce_roster : (s.setForce n v).roster = s.roster := rfl
@[simp] theorem State.setForce_links : (s.setForce n v).links = s.links := rfl
@[simp] theorem State.setForce_lines : (s.setForce n v).lines = s.lines := rfl
@[simp] theorem State.setForce_handed : (s.setForce n v).handed = s.handed := rfl
@[simp] theorem State.setForce_flags : (s.setForce n v).flags = s.flags := rfl
@[simp] theorem State.setForce_link : (s.setForce n v).link = s.link := rfl
@[simp] theorem State.setForce_store : (s.setForce n v).store = s.store := rfl
@[simp] theorem State.setForce_startUp : (s.setForce n v).startUp = s.startUp := rfl
@[simp] theorem State.setForce_pins : (s.setForce n v).pins = s.pins := rfl
@[simp] theorem State.setForce_pending : (s.setForce n v).pending = s.pending := rfl
@[simp] theorem State.setForce_slot (k : Nat) : (s.setForce n v).slot k = s.slot k := rfl
@[simp] theorem State.setForce_group_ (k : Nat) : (s.setForce n v).group k = s.group k := rfl
@[simp] theorem State.setForce_resumeOf (k : Nat) : (s.setForce n v).resumeOf k = s.resumeOf k := rfl
@[simp] theorem State.setForce_held (k : Nat) : (s.setForce n v).held k = s.held k := rfl
@[simp] theorem State.setForce_tracker (k : Nat) : (s.setForce n v).tracker k = s.tracker k := rfl
@[simp] theorem State.setForce_monitorOf (k : Nat) : (s.setForce n v).monitorOf k = s.monitorOf k := rfl
@[simp] theorem State.setForce_floorEntry (k : Nat) : (s.setForce n v).floorEntry k = s.floorEntry k := rfl
@[simp] theorem State.setForce_effectiveFloor (k : Nat) :
    (s.setForce n v).effectiveFloor k = s.effectiveFloor k := rfl
@[simp] theorem State.setForce_rosterEntry (k : Nat) : (s.setForce n v).rosterEntry k = s.rosterEntry k := rfl
@[simp] theorem State.setForce_linkOf (k : Nat) : (s.setForce n v).linkOf k = s.linkOf k := rfl
@[simp] theorem State.setForce_line (k : Nat) : (s.setForce n v).line k = s.line k := rfl
@[simp] theorem State.setForce_raisedFlags (k : Nat) : (s.setForce n v).raisedFlags k = s.raisedFlags k := rfl
@[simp] theorem State.setForce_program (k : Nat) : (s.setForce n v).program k = s.program k := rfl
@[simp] theorem State.setForce_week (k : Nat) : (s.setForce n v).week k = s.week k := rfl
@[simp] theorem State.setForce_event (k : Nat) : (s.setForce n v).event k = s.event k := rfl

/-- Read after a write of the same record. -/
@[simp] theorem State.setForce_get_same : (s.setForce n v).forceOf n = v := Table.get_set_same _ _ _ _

theorem State.setForce_get_other {k : Nat} (h : k ≠ n) : (s.setForce n v).forceOf k = s.forceOf k := Table.get_set_other _ _ _ h

theorem State.setForce_get (k : Nat) : (s.setForce n v).forceOf k = if k = n then v else s.forceOf k := Table.get_set _ _ _ _ _

/-- The last of two writes of the same record stands. -/
@[simp] theorem State.setForce_setForce (w) : (s.setForce n v).setForce n w = s.setForce n w := by
  simp only [State.setForce, Table.set_set]

@[simp] theorem State.setForce_governing (k : Nat) : (s.setForce n v).governing k = s.governing k := rfl
@[simp] theorem State.setForce_membersOf (k : Nat) : (s.setForce n v).membersOf k = s.membersOf k := rfl
@[simp] theorem State.setForce_sitesOn (k : Nat) : (s.setForce n v).sitesOn k = s.sitesOn k := rfl
@[simp] theorem State.setForce_groupOf (k : Nat) : (s.setForce n v).groupOf k = s.groupOf k := rfl
@[simp] theorem State.setForce_now : (s.setForce n v).now = s.now := rfl
@[simp] theorem State.setForce_isRunning : (s.setForce n v).isRunning = s.isRunning := rfl
@[simp] theorem State.setForce_storing : (s.setForce n v).storing = s.storing := rfl

end

/-! ### `State.setGoverning` -/

section
variable (s : State) (n : Nat) (v : Governing)

@[simp] theorem State.setGoverning_time : (s.setGoverning n v).time = s.time := rfl
@[simp] theorem State.setGoverning_retained : (s.setGoverning n v).retained = s.retained := rfl
@[simp] theorem State.setGoverning_library : (s.setGoverning n v).library = s.library := rfl
@[simp] theorem State.setGoverning_resolver_programs :
    (s.setGoverning n v).resolver.programs = s.resolver.programs := rfl
@[simp] theorem State.setGoverning_resolver_weeks : (s.setGoverning n v).resolver.weeks = s.resolver.weeks := rfl
@[simp] theorem State.setGoverning_resolver_events : (s.setGoverning n v).resolver.events = s.resolver.events := rfl
@[simp] theorem State.setGoverning_resolver_sequence :
    (s.setGoverning n v).resolver.sequence = s.resolver.sequence := rfl
@[simp] theorem State.setGoverning_resolver_forces : (s.setGoverning n v).resolver.forces = s.resolver.forces := rfl
@[simp] theorem State.setGoverning_resolver_governing :
    (s.setGoverning n v).resolver.governing = Table.set Governing.reset s.resolver.governing n v := rfl
@[simp] theorem State.setGoverning_resolver_owed : (s.setGoverning n v).resolver.owed = s.resolver.owed := rfl
@[simp] theorem State.setGoverning_groups : (s.setGoverning n v).groups = s.groups := rfl
@[simp] theorem State.setGoverning_trackers : (s.setGoverning n v).trackers = s.trackers := rfl
@[simp] theorem State.setGoverning_monitor : (s.setGoverning n v).monitor = s.monitor := rfl
@[simp] theorem State.setGoverning_floors : (s.setGoverning n v).floors = s.floors := rfl
@[simp] theorem State.setGoverning_roster : (s.setGoverning n v).roster = s.roster := rfl
@[simp] theorem State.setGoverning_links : (s.setGoverning n v).links = s.links := rfl
@[simp] theorem State.setGoverning_lines : (s.setGoverning n v).lines = s.lines := rfl
@[simp] theorem State.setGoverning_handed : (s.setGoverning n v).handed = s.handed := rfl
@[simp] theorem State.setGoverning_flags : (s.setGoverning n v).flags = s.flags := rfl
@[simp] theorem State.setGoverning_link : (s.setGoverning n v).link = s.link := rfl
@[simp] theorem State.setGoverning_store : (s.setGoverning n v).store = s.store := rfl
@[simp] theorem State.setGoverning_startUp : (s.setGoverning n v).startUp = s.startUp := rfl
@[simp] theorem State.setGoverning_pins : (s.setGoverning n v).pins = s.pins := rfl
@[simp] theorem State.setGoverning_pending : (s.setGoverning n v).pending = s.pending := rfl
@[simp] theorem State.setGoverning_slot (k : Nat) : (s.setGoverning n v).slot k = s.slot k := rfl
@[simp] theorem State.setGoverning_group_ (k : Nat) : (s.setGoverning n v).group k = s.group k := rfl
@[simp] theorem State.setGoverning_resumeOf (k : Nat) : (s.setGoverning n v).resumeOf k = s.resumeOf k := rfl
@[simp] theorem State.setGoverning_held (k : Nat) : (s.setGoverning n v).held k = s.held k := rfl
@[simp] theorem State.setGoverning_tracker (k : Nat) : (s.setGoverning n v).tracker k = s.tracker k := rfl
@[simp] theorem State.setGoverning_monitorOf (k : Nat) : (s.setGoverning n v).monitorOf k = s.monitorOf k := rfl
@[simp] theorem State.setGoverning_floorEntry (k : Nat) : (s.setGoverning n v).floorEntry k = s.floorEntry k := rfl
@[simp] theorem State.setGoverning_effectiveFloor (k : Nat) :
    (s.setGoverning n v).effectiveFloor k = s.effectiveFloor k := rfl
@[simp] theorem State.setGoverning_rosterEntry (k : Nat) : (s.setGoverning n v).rosterEntry k = s.rosterEntry k := rfl
@[simp] theorem State.setGoverning_linkOf (k : Nat) : (s.setGoverning n v).linkOf k = s.linkOf k := rfl
@[simp] theorem State.setGoverning_line (k : Nat) : (s.setGoverning n v).line k = s.line k := rfl
@[simp] theorem State.setGoverning_raisedFlags (k : Nat) : (s.setGoverning n v).raisedFlags k = s.raisedFlags k := rfl
@[simp] theorem State.setGoverning_program (k : Nat) : (s.setGoverning n v).program k = s.program k := rfl
@[simp] theorem State.setGoverning_week (k : Nat) : (s.setGoverning n v).week k = s.week k := rfl
@[simp] theorem State.setGoverning_event (k : Nat) : (s.setGoverning n v).event k = s.event k := rfl
@[simp] theorem State.setGoverning_forceOf (k : Nat) : (s.setGoverning n v).forceOf k = s.forceOf k := rfl

/-- Read after a write of the same record. -/
@[simp] theorem State.setGoverning_get_same : (s.setGoverning n v).governing n = v := Table.get_set_same _ _ _ _

theorem State.setGoverning_get_other {k : Nat} (h : k ≠ n) : (s.setGoverning n v).governing k = s.governing k := Table.get_set_other _ _ _ h

theorem State.setGoverning_get (k : Nat) : (s.setGoverning n v).governing k = if k = n then v else s.governing k := Table.get_set _ _ _ _ _

/-- The last of two writes of the same record stands. -/
@[simp] theorem State.setGoverning_setGoverning (w) : (s.setGoverning n v).setGoverning n w = s.setGoverning n w := by
  simp only [State.setGoverning, Table.set_set]

@[simp] theorem State.setGoverning_membersOf (k : Nat) : (s.setGoverning n v).membersOf k = s.membersOf k := rfl
@[simp] theorem State.setGoverning_sitesOn (k : Nat) : (s.setGoverning n v).sitesOn k = s.sitesOn k := rfl
@[simp] theorem State.setGoverning_groupOf (k : Nat) : (s.setGoverning n v).groupOf k = s.groupOf k := rfl
@[simp] theorem State.setGoverning_now : (s.setGoverning n v).now = s.now := rfl
@[simp] theorem State.setGoverning_isRunning : (s.setGoverning n v).isRunning = s.isRunning := rfl
@[simp] theorem State.setGoverning_storing : (s.setGoverning n v).storing = s.storing := rfl

end

/-! ### `State.setTime` -/

section
variable (s : State) (v : TimeBase)

@[simp] theorem State.setTime_time : (s.setTime v).time = v := rfl
@[simp] theorem State.setTime_retained : (s.setTime v).retained = s.retained := rfl
@[simp] theorem State.setTime_library : (s.setTime v).library = s.library := rfl
@[simp] theorem State.setTime_resolver : (s.setTime v).resolver = s.resolver := rfl
@[simp] theorem State.setTime_groups : (s.setTime v).groups = s.groups := rfl
@[simp] theorem State.setTime_trackers : (s.setTime v).trackers = s.trackers := rfl
@[simp] theorem State.setTime_monitor : (s.setTime v).monitor = s.monitor := rfl
@[simp] theorem State.setTime_floors : (s.setTime v).floors = s.floors := rfl
@[simp] theorem State.setTime_roster : (s.setTime v).roster = s.roster := rfl
@[simp] theorem State.setTime_links : (s.setTime v).links = s.links := rfl
@[simp] theorem State.setTime_lines : (s.setTime v).lines = s.lines := rfl
@[simp] theorem State.setTime_handed : (s.setTime v).handed = s.handed := rfl
@[simp] theorem State.setTime_flags : (s.setTime v).flags = s.flags := rfl
@[simp] theorem State.setTime_link : (s.setTime v).link = s.link := rfl
@[simp] theorem State.setTime_store : (s.setTime v).store = s.store := rfl
@[simp] theorem State.setTime_startUp : (s.setTime v).startUp = s.startUp := rfl
@[simp] theorem State.setTime_pins : (s.setTime v).pins = s.pins := rfl
@[simp] theorem State.setTime_pending : (s.setTime v).pending = s.pending := rfl
@[simp] theorem State.setTime_slot (k : Nat) : (s.setTime v).slot k = s.slot k := rfl
@[simp] theorem State.setTime_group_ (k : Nat) : (s.setTime v).group k = s.group k := rfl
@[simp] theorem State.setTime_resumeOf (k : Nat) : (s.setTime v).resumeOf k = s.resumeOf k := rfl
@[simp] theorem State.setTime_held (k : Nat) : (s.setTime v).held k = s.held k := rfl
@[simp] theorem State.setTime_tracker (k : Nat) : (s.setTime v).tracker k = s.tracker k := rfl
@[simp] theorem State.setTime_monitorOf (k : Nat) : (s.setTime v).monitorOf k = s.monitorOf k := rfl
@[simp] theorem State.setTime_floorEntry (k : Nat) : (s.setTime v).floorEntry k = s.floorEntry k := rfl
@[simp] theorem State.setTime_effectiveFloor (k : Nat) : (s.setTime v).effectiveFloor k = s.effectiveFloor k := rfl
@[simp] theorem State.setTime_rosterEntry (k : Nat) : (s.setTime v).rosterEntry k = s.rosterEntry k := rfl
@[simp] theorem State.setTime_linkOf (k : Nat) : (s.setTime v).linkOf k = s.linkOf k := rfl
@[simp] theorem State.setTime_line (k : Nat) : (s.setTime v).line k = s.line k := rfl
@[simp] theorem State.setTime_raisedFlags (k : Nat) : (s.setTime v).raisedFlags k = s.raisedFlags k := rfl
@[simp] theorem State.setTime_program (k : Nat) : (s.setTime v).program k = s.program k := rfl
@[simp] theorem State.setTime_week (k : Nat) : (s.setTime v).week k = s.week k := rfl
@[simp] theorem State.setTime_event (k : Nat) : (s.setTime v).event k = s.event k := rfl
@[simp] theorem State.setTime_forceOf (k : Nat) : (s.setTime v).forceOf k = s.forceOf k := rfl
@[simp] theorem State.setTime_governing (k : Nat) : (s.setTime v).governing k = s.governing k := rfl
@[simp] theorem State.setTime_membersOf (k : Nat) : (s.setTime v).membersOf k = s.membersOf k := rfl
@[simp] theorem State.setTime_sitesOn (k : Nat) : (s.setTime v).sitesOn k = s.sitesOn k := rfl
@[simp] theorem State.setTime_groupOf (k : Nat) : (s.setTime v).groupOf k = s.groupOf k := rfl
@[simp] theorem State.setTime_isRunning : (s.setTime v).isRunning = s.isRunning := rfl
@[simp] theorem State.setTime_storing : (s.setTime v).storing = s.storing := rfl

end

/-! ### `State.setLink` -/

section
variable (s : State) (v : LinkController)

@[simp] theorem State.setLink_time : (s.setLink v).time = s.time := rfl
@[simp] theorem State.setLink_retained : (s.setLink v).retained = s.retained := rfl
@[simp] theorem State.setLink_library : (s.setLink v).library = s.library := rfl
@[simp] theorem State.setLink_resolver : (s.setLink v).resolver = s.resolver := rfl
@[simp] theorem State.setLink_groups : (s.setLink v).groups = s.groups := rfl
@[simp] theorem State.setLink_trackers : (s.setLink v).trackers = s.trackers := rfl
@[simp] theorem State.setLink_monitor : (s.setLink v).monitor = s.monitor := rfl
@[simp] theorem State.setLink_floors : (s.setLink v).floors = s.floors := rfl
@[simp] theorem State.setLink_roster : (s.setLink v).roster = s.roster := rfl
@[simp] theorem State.setLink_links : (s.setLink v).links = s.links := rfl
@[simp] theorem State.setLink_lines : (s.setLink v).lines = s.lines := rfl
@[simp] theorem State.setLink_handed : (s.setLink v).handed = s.handed := rfl
@[simp] theorem State.setLink_flags : (s.setLink v).flags = s.flags := rfl
@[simp] theorem State.setLink_link : (s.setLink v).link = v := rfl
@[simp] theorem State.setLink_store : (s.setLink v).store = s.store := rfl
@[simp] theorem State.setLink_startUp : (s.setLink v).startUp = s.startUp := rfl
@[simp] theorem State.setLink_pins : (s.setLink v).pins = s.pins := rfl
@[simp] theorem State.setLink_pending : (s.setLink v).pending = s.pending := rfl
@[simp] theorem State.setLink_slot (k : Nat) : (s.setLink v).slot k = s.slot k := rfl
@[simp] theorem State.setLink_group_ (k : Nat) : (s.setLink v).group k = s.group k := rfl
@[simp] theorem State.setLink_resumeOf (k : Nat) : (s.setLink v).resumeOf k = s.resumeOf k := rfl
@[simp] theorem State.setLink_held (k : Nat) : (s.setLink v).held k = s.held k := rfl
@[simp] theorem State.setLink_tracker (k : Nat) : (s.setLink v).tracker k = s.tracker k := rfl
@[simp] theorem State.setLink_monitorOf (k : Nat) : (s.setLink v).monitorOf k = s.monitorOf k := rfl
@[simp] theorem State.setLink_floorEntry (k : Nat) : (s.setLink v).floorEntry k = s.floorEntry k := rfl
@[simp] theorem State.setLink_effectiveFloor (k : Nat) : (s.setLink v).effectiveFloor k = s.effectiveFloor k := rfl
@[simp] theorem State.setLink_rosterEntry (k : Nat) : (s.setLink v).rosterEntry k = s.rosterEntry k := rfl
@[simp] theorem State.setLink_linkOf (k : Nat) : (s.setLink v).linkOf k = s.linkOf k := rfl
@[simp] theorem State.setLink_line (k : Nat) : (s.setLink v).line k = s.line k := rfl
@[simp] theorem State.setLink_raisedFlags (k : Nat) : (s.setLink v).raisedFlags k = s.raisedFlags k := rfl
@[simp] theorem State.setLink_program (k : Nat) : (s.setLink v).program k = s.program k := rfl
@[simp] theorem State.setLink_week (k : Nat) : (s.setLink v).week k = s.week k := rfl
@[simp] theorem State.setLink_event (k : Nat) : (s.setLink v).event k = s.event k := rfl
@[simp] theorem State.setLink_forceOf (k : Nat) : (s.setLink v).forceOf k = s.forceOf k := rfl
@[simp] theorem State.setLink_governing (k : Nat) : (s.setLink v).governing k = s.governing k := rfl
@[simp] theorem State.setLink_membersOf (k : Nat) : (s.setLink v).membersOf k = s.membersOf k := rfl
@[simp] theorem State.setLink_sitesOn (k : Nat) : (s.setLink v).sitesOn k = s.sitesOn k := rfl
@[simp] theorem State.setLink_groupOf (k : Nat) : (s.setLink v).groupOf k = s.groupOf k := rfl
@[simp] theorem State.setLink_now : (s.setLink v).now = s.now := rfl
@[simp] theorem State.setLink_isRunning : (s.setLink v).isRunning = s.isRunning := rfl
@[simp] theorem State.setLink_storing : (s.setLink v).storing = s.storing := rfl

end

/-! ### `State.setFramer` -/

section
variable (s : State) (v : Framer)

@[simp] theorem State.setFramer_time : (s.setFramer v).time = s.time := rfl
@[simp] theorem State.setFramer_retained : (s.setFramer v).retained = s.retained := rfl
@[simp] theorem State.setFramer_library : (s.setFramer v).library = s.library := rfl
@[simp] theorem State.setFramer_resolver : (s.setFramer v).resolver = s.resolver := rfl
@[simp] theorem State.setFramer_groups : (s.setFramer v).groups = s.groups := rfl
@[simp] theorem State.setFramer_trackers : (s.setFramer v).trackers = s.trackers := rfl
@[simp] theorem State.setFramer_monitor : (s.setFramer v).monitor = s.monitor := rfl
@[simp] theorem State.setFramer_floors : (s.setFramer v).floors = s.floors := rfl
@[simp] theorem State.setFramer_roster : (s.setFramer v).roster = s.roster := rfl
@[simp] theorem State.setFramer_links : (s.setFramer v).links = s.links := rfl
@[simp] theorem State.setFramer_lines : (s.setFramer v).lines = s.lines := rfl
@[simp] theorem State.setFramer_handed : (s.setFramer v).handed = s.handed := rfl
@[simp] theorem State.setFramer_flags : (s.setFramer v).flags = s.flags := rfl
@[simp] theorem State.setFramer_link_framer : (s.setFramer v).link.framer = v := rfl
@[simp] theorem State.setFramer_link_queue : (s.setFramer v).link.queue = s.link.queue := rfl
@[simp] theorem State.setFramer_link_refusals : (s.setFramer v).link.refusals = s.link.refusals := rfl
@[simp] theorem State.setFramer_link_replySlot : (s.setFramer v).link.replySlot = s.link.replySlot := rfl
@[simp] theorem State.setFramer_link_notices : (s.setFramer v).link.notices = s.link.notices := rfl
@[simp] theorem State.setFramer_link_lostMark : (s.setFramer v).link.lostMark = s.link.lostMark := rfl
@[simp] theorem State.setFramer_link_lostCount : (s.setFramer v).link.lostCount = s.link.lostCount := rfl
@[simp] theorem State.setFramer_link_firstLost : (s.setFramer v).link.firstLost = s.link.firstLost := rfl
@[simp] theorem State.setFramer_link_rejectedTotal : (s.setFramer v).link.rejectedTotal = s.link.rejectedTotal := rfl
@[simp] theorem State.setFramer_link_refusalTotal : (s.setFramer v).link.refusalTotal = s.link.refusalTotal := rfl
@[simp] theorem State.setFramer_link_inFlight : (s.setFramer v).link.inFlight = s.link.inFlight := rfl
@[simp] theorem State.setFramer_link_stopped : (s.setFramer v).link.stopped = s.link.stopped := rfl
@[simp] theorem State.setFramer_link_rate : (s.setFramer v).link.rate = s.link.rate := rfl
@[simp] theorem State.setFramer_store : (s.setFramer v).store = s.store := rfl
@[simp] theorem State.setFramer_startUp : (s.setFramer v).startUp = s.startUp := rfl
@[simp] theorem State.setFramer_pins : (s.setFramer v).pins = s.pins := rfl
@[simp] theorem State.setFramer_pending : (s.setFramer v).pending = s.pending := rfl
@[simp] theorem State.setFramer_slot (k : Nat) : (s.setFramer v).slot k = s.slot k := rfl
@[simp] theorem State.setFramer_group_ (k : Nat) : (s.setFramer v).group k = s.group k := rfl
@[simp] theorem State.setFramer_resumeOf (k : Nat) : (s.setFramer v).resumeOf k = s.resumeOf k := rfl
@[simp] theorem State.setFramer_held (k : Nat) : (s.setFramer v).held k = s.held k := rfl
@[simp] theorem State.setFramer_tracker (k : Nat) : (s.setFramer v).tracker k = s.tracker k := rfl
@[simp] theorem State.setFramer_monitorOf (k : Nat) : (s.setFramer v).monitorOf k = s.monitorOf k := rfl
@[simp] theorem State.setFramer_floorEntry (k : Nat) : (s.setFramer v).floorEntry k = s.floorEntry k := rfl
@[simp] theorem State.setFramer_effectiveFloor (k : Nat) :
    (s.setFramer v).effectiveFloor k = s.effectiveFloor k := rfl
@[simp] theorem State.setFramer_rosterEntry (k : Nat) : (s.setFramer v).rosterEntry k = s.rosterEntry k := rfl
@[simp] theorem State.setFramer_linkOf (k : Nat) : (s.setFramer v).linkOf k = s.linkOf k := rfl
@[simp] theorem State.setFramer_line (k : Nat) : (s.setFramer v).line k = s.line k := rfl
@[simp] theorem State.setFramer_raisedFlags (k : Nat) : (s.setFramer v).raisedFlags k = s.raisedFlags k := rfl
@[simp] theorem State.setFramer_program (k : Nat) : (s.setFramer v).program k = s.program k := rfl
@[simp] theorem State.setFramer_week (k : Nat) : (s.setFramer v).week k = s.week k := rfl
@[simp] theorem State.setFramer_event (k : Nat) : (s.setFramer v).event k = s.event k := rfl
@[simp] theorem State.setFramer_forceOf (k : Nat) : (s.setFramer v).forceOf k = s.forceOf k := rfl
@[simp] theorem State.setFramer_governing (k : Nat) : (s.setFramer v).governing k = s.governing k := rfl
@[simp] theorem State.setFramer_membersOf (k : Nat) : (s.setFramer v).membersOf k = s.membersOf k := rfl
@[simp] theorem State.setFramer_sitesOn (k : Nat) : (s.setFramer v).sitesOn k = s.sitesOn k := rfl
@[simp] theorem State.setFramer_groupOf (k : Nat) : (s.setFramer v).groupOf k = s.groupOf k := rfl
@[simp] theorem State.setFramer_now : (s.setFramer v).now = s.now := rfl
@[simp] theorem State.setFramer_isRunning : (s.setFramer v).isRunning = s.isRunning := rfl
@[simp] theorem State.setFramer_storing : (s.setFramer v).storing = s.storing := rfl

end

/-! ### `State.setProgrammer` -/

section
variable (s : State) (v : Programmer)

@[simp] theorem State.setProgrammer_time : (s.setProgrammer v).time = s.time := rfl
@[simp] theorem State.setProgrammer_retained : (s.setProgrammer v).retained = s.retained := rfl
@[simp] theorem State.setProgrammer_library : (s.setProgrammer v).library = s.library := rfl
@[simp] theorem State.setProgrammer_resolver : (s.setProgrammer v).resolver = s.resolver := rfl
@[simp] theorem State.setProgrammer_groups : (s.setProgrammer v).groups = s.groups := rfl
@[simp] theorem State.setProgrammer_trackers : (s.setProgrammer v).trackers = s.trackers := rfl
@[simp] theorem State.setProgrammer_monitor : (s.setProgrammer v).monitor = s.monitor := rfl
@[simp] theorem State.setProgrammer_floors_entries : (s.setProgrammer v).floors.entries = s.floors.entries := rfl
@[simp] theorem State.setProgrammer_floors_lockMark : (s.setProgrammer v).floors.lockMark = s.floors.lockMark := rfl
@[simp] theorem State.setProgrammer_floors_effective :
    (s.setProgrammer v).floors.effective = s.floors.effective := rfl
@[simp] theorem State.setProgrammer_floors_lockInEffect :
    (s.setProgrammer v).floors.lockInEffect = s.floors.lockInEffect := rfl
@[simp] theorem State.setProgrammer_floors_windowOpen :
    (s.setProgrammer v).floors.windowOpen = s.floors.windowOpen := rfl
@[simp] theorem State.setProgrammer_floors_windowCount :
    (s.setProgrammer v).floors.windowCount = s.floors.windowCount := rfl
@[simp] theorem State.setProgrammer_floors_programmer : (s.setProgrammer v).floors.programmer = v := rfl
@[simp] theorem State.setProgrammer_roster : (s.setProgrammer v).roster = s.roster := rfl
@[simp] theorem State.setProgrammer_links : (s.setProgrammer v).links = s.links := rfl
@[simp] theorem State.setProgrammer_lines : (s.setProgrammer v).lines = s.lines := rfl
@[simp] theorem State.setProgrammer_handed : (s.setProgrammer v).handed = s.handed := rfl
@[simp] theorem State.setProgrammer_flags : (s.setProgrammer v).flags = s.flags := rfl
@[simp] theorem State.setProgrammer_link : (s.setProgrammer v).link = s.link := rfl
@[simp] theorem State.setProgrammer_store : (s.setProgrammer v).store = s.store := rfl
@[simp] theorem State.setProgrammer_startUp : (s.setProgrammer v).startUp = s.startUp := rfl
@[simp] theorem State.setProgrammer_pins : (s.setProgrammer v).pins = s.pins := rfl
@[simp] theorem State.setProgrammer_pending : (s.setProgrammer v).pending = s.pending := rfl
@[simp] theorem State.setProgrammer_slot (k : Nat) : (s.setProgrammer v).slot k = s.slot k := rfl
@[simp] theorem State.setProgrammer_group_ (k : Nat) : (s.setProgrammer v).group k = s.group k := rfl
@[simp] theorem State.setProgrammer_resumeOf (k : Nat) : (s.setProgrammer v).resumeOf k = s.resumeOf k := rfl
@[simp] theorem State.setProgrammer_held (k : Nat) : (s.setProgrammer v).held k = s.held k := rfl
@[simp] theorem State.setProgrammer_tracker (k : Nat) : (s.setProgrammer v).tracker k = s.tracker k := rfl
@[simp] theorem State.setProgrammer_monitorOf (k : Nat) : (s.setProgrammer v).monitorOf k = s.monitorOf k := rfl
@[simp] theorem State.setProgrammer_floorEntry (k : Nat) : (s.setProgrammer v).floorEntry k = s.floorEntry k := rfl
@[simp] theorem State.setProgrammer_effectiveFloor (k : Nat) :
    (s.setProgrammer v).effectiveFloor k = s.effectiveFloor k := rfl
@[simp] theorem State.setProgrammer_rosterEntry (k : Nat) : (s.setProgrammer v).rosterEntry k = s.rosterEntry k := rfl
@[simp] theorem State.setProgrammer_linkOf (k : Nat) : (s.setProgrammer v).linkOf k = s.linkOf k := rfl
@[simp] theorem State.setProgrammer_line (k : Nat) : (s.setProgrammer v).line k = s.line k := rfl
@[simp] theorem State.setProgrammer_raisedFlags (k : Nat) : (s.setProgrammer v).raisedFlags k = s.raisedFlags k := rfl
@[simp] theorem State.setProgrammer_program (k : Nat) : (s.setProgrammer v).program k = s.program k := rfl
@[simp] theorem State.setProgrammer_week (k : Nat) : (s.setProgrammer v).week k = s.week k := rfl
@[simp] theorem State.setProgrammer_event (k : Nat) : (s.setProgrammer v).event k = s.event k := rfl
@[simp] theorem State.setProgrammer_forceOf (k : Nat) : (s.setProgrammer v).forceOf k = s.forceOf k := rfl
@[simp] theorem State.setProgrammer_governing (k : Nat) : (s.setProgrammer v).governing k = s.governing k := rfl
@[simp] theorem State.setProgrammer_membersOf (k : Nat) : (s.setProgrammer v).membersOf k = s.membersOf k := rfl
@[simp] theorem State.setProgrammer_sitesOn (k : Nat) : (s.setProgrammer v).sitesOn k = s.sitesOn k := rfl
@[simp] theorem State.setProgrammer_groupOf (k : Nat) : (s.setProgrammer v).groupOf k = s.groupOf k := rfl
@[simp] theorem State.setProgrammer_now : (s.setProgrammer v).now = s.now := rfl
@[simp] theorem State.setProgrammer_isRunning : (s.setProgrammer v).isRunning = s.isRunning := rfl
@[simp] theorem State.setProgrammer_storing : (s.setProgrammer v).storing = s.storing := rfl

end

/-! ### `State.setHandedCm` -/

section
variable (s : State) (v : List (Nat × Report))

@[simp] theorem State.setHandedCm_time : (s.setHandedCm v).time = s.time := rfl
@[simp] theorem State.setHandedCm_retained : (s.setHandedCm v).retained = s.retained := rfl
@[simp] theorem State.setHandedCm_library : (s.setHandedCm v).library = s.library := rfl
@[simp] theorem State.setHandedCm_resolver : (s.setHandedCm v).resolver = s.resolver := rfl
@[simp] theorem State.setHandedCm_groups : (s.setHandedCm v).groups = s.groups := rfl
@[simp] theorem State.setHandedCm_trackers : (s.setHandedCm v).trackers = s.trackers := rfl
@[simp] theorem State.setHandedCm_monitor : (s.setHandedCm v).monitor = s.monitor := rfl
@[simp] theorem State.setHandedCm_floors : (s.setHandedCm v).floors = s.floors := rfl
@[simp] theorem State.setHandedCm_roster : (s.setHandedCm v).roster = s.roster := rfl
@[simp] theorem State.setHandedCm_links : (s.setHandedCm v).links = s.links := rfl
@[simp] theorem State.setHandedCm_lines : (s.setHandedCm v).lines = s.lines := rfl
@[simp] theorem State.setHandedCm_handed_stu : (s.setHandedCm v).handed.stu = s.handed.stu := rfl
@[simp] theorem State.setHandedCm_handed_cm : (s.setHandedCm v).handed.cm = v := rfl
@[simp] theorem State.setHandedCm_handed_fu : (s.setHandedCm v).handed.fu = s.handed.fu := rfl
@[simp] theorem State.setHandedCm_flags : (s.setHandedCm v).flags = s.flags := rfl
@[simp] theorem State.setHandedCm_link : (s.setHandedCm v).link = s.link := rfl
@[simp] theorem State.setHandedCm_store : (s.setHandedCm v).store = s.store := rfl
@[simp] theorem State.setHandedCm_startUp : (s.setHandedCm v).startUp = s.startUp := rfl
@[simp] theorem State.setHandedCm_pins : (s.setHandedCm v).pins = s.pins := rfl
@[simp] theorem State.setHandedCm_pending : (s.setHandedCm v).pending = s.pending := rfl
@[simp] theorem State.setHandedCm_slot (k : Nat) : (s.setHandedCm v).slot k = s.slot k := rfl
@[simp] theorem State.setHandedCm_group_ (k : Nat) : (s.setHandedCm v).group k = s.group k := rfl
@[simp] theorem State.setHandedCm_resumeOf (k : Nat) : (s.setHandedCm v).resumeOf k = s.resumeOf k := rfl
@[simp] theorem State.setHandedCm_held (k : Nat) : (s.setHandedCm v).held k = s.held k := rfl
@[simp] theorem State.setHandedCm_tracker (k : Nat) : (s.setHandedCm v).tracker k = s.tracker k := rfl
@[simp] theorem State.setHandedCm_monitorOf (k : Nat) : (s.setHandedCm v).monitorOf k = s.monitorOf k := rfl
@[simp] theorem State.setHandedCm_floorEntry (k : Nat) : (s.setHandedCm v).floorEntry k = s.floorEntry k := rfl
@[simp] theorem State.setHandedCm_effectiveFloor (k : Nat) :
    (s.setHandedCm v).effectiveFloor k = s.effectiveFloor k := rfl
@[simp] theorem State.setHandedCm_rosterEntry (k : Nat) : (s.setHandedCm v).rosterEntry k = s.rosterEntry k := rfl
@[simp] theorem State.setHandedCm_linkOf (k : Nat) : (s.setHandedCm v).linkOf k = s.linkOf k := rfl
@[simp] theorem State.setHandedCm_line (k : Nat) : (s.setHandedCm v).line k = s.line k := rfl
@[simp] theorem State.setHandedCm_raisedFlags (k : Nat) : (s.setHandedCm v).raisedFlags k = s.raisedFlags k := rfl
@[simp] theorem State.setHandedCm_program (k : Nat) : (s.setHandedCm v).program k = s.program k := rfl
@[simp] theorem State.setHandedCm_week (k : Nat) : (s.setHandedCm v).week k = s.week k := rfl
@[simp] theorem State.setHandedCm_event (k : Nat) : (s.setHandedCm v).event k = s.event k := rfl
@[simp] theorem State.setHandedCm_forceOf (k : Nat) : (s.setHandedCm v).forceOf k = s.forceOf k := rfl
@[simp] theorem State.setHandedCm_governing (k : Nat) : (s.setHandedCm v).governing k = s.governing k := rfl
@[simp] theorem State.setHandedCm_membersOf (k : Nat) : (s.setHandedCm v).membersOf k = s.membersOf k := rfl
@[simp] theorem State.setHandedCm_sitesOn (k : Nat) : (s.setHandedCm v).sitesOn k = s.sitesOn k := rfl
@[simp] theorem State.setHandedCm_groupOf (k : Nat) : (s.setHandedCm v).groupOf k = s.groupOf k := rfl
@[simp] theorem State.setHandedCm_now : (s.setHandedCm v).now = s.now := rfl
@[simp] theorem State.setHandedCm_isRunning : (s.setHandedCm v).isRunning = s.isRunning := rfl
@[simp] theorem State.setHandedCm_storing : (s.setHandedCm v).storing = s.storing := rfl

end

/-! ### `State.setZeros` -/

section
variable (s : State) (v : List HandedZero)

@[simp] theorem State.setZeros_time : (s.setZeros v).time = s.time := rfl
@[simp] theorem State.setZeros_retained : (s.setZeros v).retained = s.retained := rfl
@[simp] theorem State.setZeros_library : (s.setZeros v).library = s.library := rfl
@[simp] theorem State.setZeros_resolver : (s.setZeros v).resolver = s.resolver := rfl
@[simp] theorem State.setZeros_groups : (s.setZeros v).groups = s.groups := rfl
@[simp] theorem State.setZeros_trackers : (s.setZeros v).trackers = s.trackers := rfl
@[simp] theorem State.setZeros_monitor_records : (s.setZeros v).monitor.records = s.monitor.records := rfl
@[simp] theorem State.setZeros_monitor_tolerance : (s.setZeros v).monitor.tolerance = s.monitor.tolerance := rfl
@[simp] theorem State.setZeros_monitor_limitCode : (s.setZeros v).monitor.limitCode = s.monitor.limitCode := rfl
@[simp] theorem State.setZeros_monitor_watched : (s.setZeros v).monitor.watched = s.monitor.watched := rfl
@[simp] theorem State.setZeros_monitor_zeros : (s.setZeros v).monitor.zeros = v := rfl
@[simp] theorem State.setZeros_floors : (s.setZeros v).floors = s.floors := rfl
@[simp] theorem State.setZeros_roster : (s.setZeros v).roster = s.roster := rfl
@[simp] theorem State.setZeros_links : (s.setZeros v).links = s.links := rfl
@[simp] theorem State.setZeros_lines : (s.setZeros v).lines = s.lines := rfl
@[simp] theorem State.setZeros_handed : (s.setZeros v).handed = s.handed := rfl
@[simp] theorem State.setZeros_flags : (s.setZeros v).flags = s.flags := rfl
@[simp] theorem State.setZeros_link : (s.setZeros v).link = s.link := rfl
@[simp] theorem State.setZeros_store : (s.setZeros v).store = s.store := rfl
@[simp] theorem State.setZeros_startUp : (s.setZeros v).startUp = s.startUp := rfl
@[simp] theorem State.setZeros_pins : (s.setZeros v).pins = s.pins := rfl
@[simp] theorem State.setZeros_pending : (s.setZeros v).pending = s.pending := rfl
@[simp] theorem State.setZeros_slot (k : Nat) : (s.setZeros v).slot k = s.slot k := rfl
@[simp] theorem State.setZeros_group_ (k : Nat) : (s.setZeros v).group k = s.group k := rfl
@[simp] theorem State.setZeros_resumeOf (k : Nat) : (s.setZeros v).resumeOf k = s.resumeOf k := rfl
@[simp] theorem State.setZeros_held (k : Nat) : (s.setZeros v).held k = s.held k := rfl
@[simp] theorem State.setZeros_tracker (k : Nat) : (s.setZeros v).tracker k = s.tracker k := rfl
@[simp] theorem State.setZeros_monitorOf (k : Nat) : (s.setZeros v).monitorOf k = s.monitorOf k := rfl
@[simp] theorem State.setZeros_floorEntry (k : Nat) : (s.setZeros v).floorEntry k = s.floorEntry k := rfl
@[simp] theorem State.setZeros_effectiveFloor (k : Nat) : (s.setZeros v).effectiveFloor k = s.effectiveFloor k := rfl
@[simp] theorem State.setZeros_rosterEntry (k : Nat) : (s.setZeros v).rosterEntry k = s.rosterEntry k := rfl
@[simp] theorem State.setZeros_linkOf (k : Nat) : (s.setZeros v).linkOf k = s.linkOf k := rfl
@[simp] theorem State.setZeros_line (k : Nat) : (s.setZeros v).line k = s.line k := rfl
@[simp] theorem State.setZeros_raisedFlags (k : Nat) : (s.setZeros v).raisedFlags k = s.raisedFlags k := rfl
@[simp] theorem State.setZeros_program (k : Nat) : (s.setZeros v).program k = s.program k := rfl
@[simp] theorem State.setZeros_week (k : Nat) : (s.setZeros v).week k = s.week k := rfl
@[simp] theorem State.setZeros_event (k : Nat) : (s.setZeros v).event k = s.event k := rfl
@[simp] theorem State.setZeros_forceOf (k : Nat) : (s.setZeros v).forceOf k = s.forceOf k := rfl
@[simp] theorem State.setZeros_governing (k : Nat) : (s.setZeros v).governing k = s.governing k := rfl
@[simp] theorem State.setZeros_membersOf (k : Nat) : (s.setZeros v).membersOf k = s.membersOf k := rfl
@[simp] theorem State.setZeros_sitesOn (k : Nat) : (s.setZeros v).sitesOn k = s.sitesOn k := rfl
@[simp] theorem State.setZeros_groupOf (k : Nat) : (s.setZeros v).groupOf k = s.groupOf k := rfl
@[simp] theorem State.setZeros_now : (s.setZeros v).now = s.now := rfl
@[simp] theorem State.setZeros_isRunning : (s.setZeros v).isRunning = s.isRunning := rfl
@[simp] theorem State.setZeros_storing : (s.setZeros v).storing = s.storing := rfl

end

end Sys2Proof.Machine
end

