-- ==== Sys2Proof/Laws/Ops.lean ====
section
/-! SUPPORT. The shared operations: for each, one lemma that says everything it can do. -/

namespace Sys2Proof.Machine

/-! ### Notices, replies, passes -/

/-- A notice joins the queue, or is dropped and counted (R187, R188); nothing else changes. -/
theorem raise_cases (kind : NoticeKind) (fields : List Field) (s : State) :
    (s.link.notices.length < 64 ∧ raise kind fields s
      = { s with link := { s.link with notices := s.link.notices ++ [{ kind := kind, fields := fields }] } }) ∨
    (64 ≤ s.link.notices.length ∧ s.link.lostMark = false ∧ raise kind fields s
      = { s with link := { s.link with lostMark := true, lostCount := 1, firstLost := some (kind, s.now) } }) ∨
    (64 ≤ s.link.notices.length ∧ s.link.lostMark = true ∧ raise kind fields s
      = { s with link := { s.link with lostMark := true, lostCount := min 65535 (s.link.lostCount + 1) } }) := by
  simp only [raise, Config.noticeQueue]
  split
  · exact .inl ⟨‹_›, rfl⟩
  · cases h : s.link.lostMark
    · exact .inr (.inl ⟨by omega, rfl, by simp [countUp]⟩)
    · exact .inr (.inr ⟨by omega, rfl, by simp [countUp]⟩)

/-- A notice changes nothing but the Link Controller. -/
theorem raise_eq (kind : NoticeKind) (fields : List Field) (s : State) :
    raise kind fields s = { s with link := (raise kind fields s).link } := by
  rcases raise_cases kind fields s with ⟨-, h⟩ | ⟨-, -, h⟩ | ⟨-, -, h⟩ <;> rw [h]

/-- A reply fills the reply slot and changes nothing else. -/
theorem answer_eq (kind tag : Byte) (status : Status) (fields : List Field) (s : State) :
    answer kind tag status fields s = { s with link := { s.link with
      replySlot := some { tag := tag, kind := kind, status := status, fields := fields } } } := rfl

/-- A pass is asked for where the part is RUNNING with a valid clock, and is not remembered otherwise (R57). -/
theorem askPass_cases (p : PassAsk) (s : State) :
    (s.startUp.phase = .running ∧ s.time.valid = true ∧
      askPass p s = { s with resolver := { s.resolver with owed := s.resolver.owed ++ [p] } }) ∨
    ((s.startUp.phase ≠ .running ∨ s.time.valid = false) ∧ askPass p s = s) := by
  unfold askPass State.isRunning
  split
  · rename_i h
    simp only [Bool.and_eq_true, decide_eq_true_eq] at h
    exact .inl ⟨h.1, h.2, rfl⟩
  · rename_i h
    refine .inr ⟨?_, rfl⟩
    cases hv : s.time.valid
    · exact .inr rfl
    · exact .inl (by simpa [hv] using h)

/-! ### Slots and references -/

theorem freeSlot_eq (n : Nat) (s : State) :
    freeSlot n s = { s with library := { s.library with
      slots := Table.set Slot.empty s.library.slots n Slot.empty, freeList := s.library.freeList ++ [n] } } := rfl

/-- A release counts down, or frees a RETIRING slot whose last reference it is (R35). -/
theorem releaseReference_cases (n : Nat) (s : State) :
    ((s.slot n).state = .retiring ∧ (s.slot n).refs ≤ 1 ∧ releaseReference n s = freeSlot n s) ∨
    (¬ ((s.slot n).state = .retiring ∧ (s.slot n).refs ≤ 1) ∧
      releaseReference n s = s.setSlot n { s.slot n with refs := (s.slot n).refs - 1 }) := by
  unfold releaseReference
  dsimp only
  split
  · rename_i h; exact .inl ⟨h.1, h.2, rfl⟩
  · exact .inr ⟨‹_›, rfl⟩

/-- A POSTED slot becomes FREE, or RETIRING while it is referenced (R30, R33). -/
theorem retireSlot_cases (n : Nat) (s : State) :
    ((s.slot n).refs = 0 ∧ retireSlot n s = freeSlot n s) ∨
    ((s.slot n).refs ≠ 0 ∧ retireSlot n s = s.setSlot n { s.slot n with state := .retiring }) := by
  unfold retireSlot
  split
  · exact .inl ⟨‹_›, rfl⟩
  · exact .inr ⟨‹_›, rfl⟩

/-! ### Trackers and orders -/

/-- An order is issued (R101): the tracker and the pending order of the site, and nothing else. -/
theorem issue_eq (n : Nat) (d : Decision) (target : Option TargetId) (basis : Option Basis) (cause : OrderCause)
    (lag : Option Nat) (s : State) :
    issue n d target basis cause lag s =
      (s.setTracker n { s.tracker n with
        nextSequence := (s.tracker n).nextSequence + 1
        ring := pushOrder (s.tracker n).ring (orderOf d (s.tracker n).nextSequence target basis cause)
        computation := some (computationOf d lag) }).setLinkOf n
      { s.linkOf n with pendingOrder := some (orderOf d (s.tracker n).nextSequence target basis cause) } := rfl

/-- The newest order of a ring is the one issued last (R85). -/
@[simp] theorem pushOrder_getLast (ring : List Order) (o : Order) : (pushOrder ring o).getLast? = some o := by
  simp [pushOrder]

/-- The settle judgement clears the settle-pending mark and raises GROUP-SETTLED, or does nothing (R79). -/
theorem judgeSettled_cases (g : Nat) (s : State) :
    ((s.group g).settlePending = true ∧ isSettled s g = true ∧ ∃ fields, judgeSettled g s
      = raise .groupSettled fields (s.setGroup g { s.group g with settlePending := false })) ∨
    (((s.group g).settlePending = false ∨ isSettled s g = false) ∧ judgeSettled g s = s) := by
  unfold judgeSettled
  dsimp only
  split
  · rename_i h
    simp only [Bool.and_eq_true] at h
    exact .inl ⟨h.1, h.2, _, rfl⟩
  · rename_i h
    refine .inr ⟨?_, rfl⟩
    cases hp : (s.group g).settlePending
    · exact .inl rfl
    · exact .inr (by simpa [hp] using h)

/-! ### The Link Controller -/

/-- With no request waiting nothing is served. -/
@[simp] theorem serveIfDue_of_empty (s : State) (h : s.link.queue = []) : serveIfDue s = s := by
  unfold serveIfDue
  rw [h]
  split <;> simp_all

@[simp] theorem nextFrame_queue (l : LinkController) : (nextFrame l).queue = l.queue := by
  unfold nextFrame noticeLeaves
  split <;> (try split) <;> rfl

@[simp] theorem arbitrate_queue (s : State) : (arbitrate s).link.queue = s.link.queue := by
  unfold arbitrate
  split <;> simp

/-- The arbiter changes nothing but the Link Controller. -/
theorem arbitrate_eq (s : State) : arbitrate s = s.setLink (if s.link.inFlight.isSome then s.link else nextFrame s.link) := by
  unfold arbitrate
  split <;> rfl

/-- With no request waiting, the Link Controller only transmits. -/
theorem pump_of_empty (s : State) (h : s.link.queue = []) (hp : s.startUp.phase ≠ .held) : pump s = arbitrate s := by
  simp [pump, hp, h]

/-- While RESET is held the Link Controller does nothing. -/
theorem pump_of_held (s : State) (hp : s.startUp.phase = .held) : pump s = s := by
  simp [pump, hp]

/-- While a frame is in flight and no request waits, the Link Controller does nothing. -/
theorem pump_of_busy (s : State) (h : s.link.queue = []) (hf : s.link.inFlight.isSome = true) : pump s = s := by
  by_cases hp : s.startUp.phase = .held
  · exact pump_of_held s hp
  · simp [pump_of_empty s h hp, arbitrate, hf]

theorem canServe_iff (l : LinkController) :
    canServe l = true ↔ l.replySlot = none ∧ l.queue = [] ∧ l.stopped = false := by
  simp [canServe, and_assoc]

/-- A request that a ready part is offered is served as it arrives (R182 case 4). -/
theorem offer_of_ready (i : Instr) (service : State → State) (s : State) (kind tag : Byte) (body : List Byte)
    (hr : Ready s) (h : encodeRequest i = some (kind, tag, body)) : offer i service s = service s := by
  obtain ⟨hp, hc⟩ := hr
  simp [offer, h, hp, hc, serveGated, State.isRunning]

/-- A frame that arrives is queued, refused, or rejected (R181). -/
theorem arrive_cases (kind tag : Byte) (body : List Byte) (s : State) :
    (s.link.queue.length < 4 ∧ arrive kind tag body s = s.setLink { s.link with
      queue := s.link.queue ++ [{ kind := kind, tag := tag, body := body, arrived := s.now }] }) ∨
    (4 ≤ s.link.queue.length ∧ s.link.refusals.length < 4 ∧ arrive kind tag body s = s.setLink { s.link with
      refusals := s.link.refusals ++ [(kind, tag)], refusalTotal := min 65535 (s.link.refusalTotal + 1) }) ∨
    (4 ≤ s.link.queue.length ∧ 4 ≤ s.link.refusals.length ∧ arrive kind tag body s
      = rejectFrame .overrun (7 + body.length) (some body.length) (some kind) (some tag) s) := by
  simp only [arrive, Config.requestQueue, Config.refusalList]
  split
  · exact .inl ⟨‹_›, rfl⟩
  · split
    · exact .inr (.inl ⟨by omega, ‹_›, rfl⟩)
    · exact .inr (.inr ⟨by omega, by omega, rfl⟩)

/-! ### The Floor Store -/

/-- What a programming operation leaves of an entry (R133): every programmed bit stays, the marks only rise, and the commit
mark rises only on an image that matches. -/
theorem programEntry_cases (e : FloorEntry) (image deaf : Image) (commit : CommitReading) (failureTakes : Bool)
    (r : FloorEntry × ProgramOutcome) (h : programEntry e image deaf commit failureTakes = r) :
    r.1.image = e.image ||| (image &&& ~~~deaf) ∧
    ((r.1.image = image ∧ commit = .takes ∧ r.1.commit = true ∧ r.1.failure = e.failure ∧ r.2 = .committed) ∨
      (r.1.image = image ∧ commit = .late ∧ r.1.commit = true ∧ r.1.failure = (e.failure || failureTakes) ∧
        r.2 = .markFault) ∨
      ((r.1.image ≠ image ∨ commit = .never) ∧ r.1.commit = e.commit ∧
        r.1.failure = (e.failure || failureTakes) ∧ r.2 ≠ .committed)) := by
  have hz : ∀ x : Image, x &&& ~~~x = 0 := fun x => by simp
  unfold programEntry failEntry at h
  dsimp only at h
  split at h
  · rename_i hc
    subst h
    refine ⟨rfl, .inr (.inr ⟨.inl fun hi => hc ?_, rfl, rfl, by cases failureTakes <;> simp⟩)⟩
    rw [show programData e.image image deaf = image from hi, hz]
  · split at h
    · rename_i hd
      subst h
      exact ⟨rfl, .inr (.inr ⟨.inl hd, rfl, rfl, by cases failureTakes <;> simp⟩)⟩
    · rename_i hd
      have hi : programData e.image image deaf = image := by simpa using hd
      split at h <;> subst h
      · exact ⟨rfl, .inl ⟨hi, rfl, rfl, rfl, rfl⟩⟩
      · exact ⟨rfl, .inr (.inl ⟨hi, rfl, rfl, rfl, by cases failureTakes <;> rfl⟩)⟩
      · exact ⟨rfl, .inr (.inr ⟨.inr rfl, rfl, rfl, by cases failureTakes <;> simp⟩)⟩

/-- Bits that land are bits of the image under programming (R133, R142): nothing else of the part changes, and no bit is
lost. -/
theorem landBits_cases (bits : Image) (s : State) :
    (∃ n v, s.floors.programmer = .floor n v ∧ landBits bits s = s.setFloorEntry n
      { s.floorEntry n with image := (s.floorEntry n).image ||| (v.image &&& bits) }) ∨
    ((∀ n v, s.floors.programmer ≠ .floor n v) ∧ landBits bits s = s) := by
  unfold landBits
  split
  · rename_i n v h; exact .inl ⟨n, v, h, rfl⟩
  · rename_i h; exact .inr ⟨by simp [h], rfl⟩
  · rename_i h; exact .inr ⟨by simp [h], rfl⟩

/-- The level of COMMISSION_EN is read (R141): asserted it changes the pin alone, and deasserted it closes the window. -/
theorem readKey_cases (asserted : Bool) (s : State) :
    (asserted = true ∧ readKey asserted s = { s with pins := { s.pins with commissionEn := true } }) ∨
    (asserted = false ∧ readKey asserted s = { s with
      pins := { s.pins with commissionEn := false }
      floors := { s.floors with windowOpen := false, windowCount := 0 } }) := by
  cases asserted
  · exact .inr ⟨rfl, rfl⟩
  · exact .inl ⟨rfl, rfl⟩

/-! ### Store sections -/

/-- The bytes of a number read back as the number, as far as they hold it (R202). -/
theorem leNumber_leBytes (k n : Nat) : leNumber (leBytes k n) = n % 256 ^ k := by
  induction k generalizing n with
  | zero => simp [leBytes, leNumber, Nat.mod_one]
  | succ k ih =>
    simp only [leBytes, leNumber, ih, BitVec.toNat_ofNat]
    exact (Nat.mod_mul (a := 256) (b := 256 ^ k) (x := n)).symm.trans (by rw [Nat.pow_succ, Nat.mul_comm])

/-- A section written with its check is read as its content is parsed: LOADED with what that gives, or INVALID (R199, R203). -/
theorem loadSection_written {α : Type} (content : List Byte) (parse : List Byte → Option α) :
    loadSection { content := content, check := leBytes 4 (crc32 content).toNat } parse
      = match parse content with
        | some v => (.loaded, some v)
        | none => (.invalid, none) := by
  have hl : (leBytes 4 (crc32 content).toNat).length = 4 := rfl
  have hn : leNumber (leBytes 4 (crc32 content).toNat) = (crc32 content).toNat := by
    rw [leNumber_leBytes]
    exact Nat.mod_eq_of_lt (crc32 content).isLt
  exact if_pos (by simp [Section.sound, hl, hn])

end Sys2Proof.Machine
end

