-- ==== Sys2Proof/Laws/Canonical.lean ====
section
/-! SUPPORT. Every write of a record keeps the tables in canonical form, and with them whatever is built of such writes. -/

namespace Sys2Proof.Machine

/-- What each application of a list keeps, the whole list keeps. -/
theorem forEach_invariant {α : Type} (P : State → Prop) (l : List α) (f : α → State → State)
    (h : ∀ x ∈ l, ∀ s, P s → P (f x s)) (s : State) (hs : P s) : P (forEach l f s) := by
  unfold forEach
  induction l generalizing s with
  | nil => exact hs
  | cons x r ih =>
    rw [List.foldl_cons]
    exact ih (fun y hy => h y (by simp [hy])) _ (h x (by simp) s hs)

/-- What one application keeps, a repetition keeps. -/
theorem repeat_invariant (P : State → Prop) (f : State → State) (h : ∀ s, P s → P (f s)) (n : Nat) (s : State)
    (hs : P s) : P (Nat.repeat f n s) := by
  induction n with
  | zero => exact hs
  | succ k ih => exact h _ ih

/-- The canonical form of the tables does not depend on the Link Controller, the Time Base, the Nonvolatile Store, the Start-up
Control, the pins, the hand-overs or the queue. -/
theorem tablesCanonical_congr {s : State} (h : TablesCanonical s) (time : TimeBase) (handed : Handed)
    (link : LinkController) (store : NvStore) (startUp : StartUp) (pins : Pins) (pending : List Instr) :
    TablesCanonical { s with time := time, handed := handed, link := link, store := store, startUp := startUp,
                             pins := pins, pending := pending } := h

theorem tablesCanonical_reset : TablesCanonical State.reset := by
  simp [TablesCanonical, State.reset, PlanLibrary.reset, Resolver.reset, Monitor.reset, FloorStore.delivered,
    FlagUnit.reset]

@[simp] theorem tablesCanonical_raise {s : State} (h : TablesCanonical s) (kind : NoticeKind) (fields : List Field) :
    TablesCanonical (raise kind fields s) := by
  rw [raise_eq]; exact h

@[simp] theorem tablesCanonical_answer {s : State} (h : TablesCanonical s) (kind tag : Byte) (status : Status)
    (fields : List Field) : TablesCanonical (answer kind tag status fields s) := h

@[simp] theorem tablesCanonical_askPass {s : State} (h : TablesCanonical s) (p : PassAsk) :
    TablesCanonical (askPass p s) := by
  rcases askPass_cases p s with ⟨-, -, e⟩ | ⟨-, e⟩ <;> rw [e] <;> exact h

@[simp] theorem tablesCanonical_setSlot {s : State} (h : TablesCanonical s) (n : Nat) (v : Slot) :
    TablesCanonical (s.setSlot n v) := by
  obtain ⟨h0, h1, h2, h3, h4, h5, h6, h7, h8, h9, h10, h11, h12, h13, h14, h15, h16⟩ := h
  exact ⟨h0, h1, Table.wf_set _ _ _ _ h2, h3, h4, h5, h6, h7, h8, h9, h10, h11, h12, h13, h14, h15, h16⟩

@[simp] theorem tablesCanonical_setGroup {s : State} (h : TablesCanonical s) (n : Nat) (v : GroupRecord) :
    TablesCanonical (s.setGroup n v) := by
  obtain ⟨h0, h1, h2, h3, h4, h5, h6, h7, h8, h9, h10, h11, h12, h13, h14, h15, h16⟩ := h
  exact ⟨h0, h1, h2, h3, h4, h5, h6, h7, Table.wf_set _ _ _ _ h8, h9, h10, h11, h12, h13, h14, h15, h16⟩

@[simp] theorem tablesCanonical_setResume {s : State} (h : TablesCanonical s) (n : Nat) (v : ResumeRecord) :
    TablesCanonical (s.setResume n v) := by
  obtain ⟨h0, h1, h2, h3, h4, h5, h6, h7, h8, h9, h10, h11, h12, h13, h14, h15, h16⟩ := h
  exact ⟨Table.wf_set _ _ _ _ h0, h1, h2, h3, h4, h5, h6, h7, h8, h9, h10, h11, h12, h13, h14, h15, h16⟩

@[simp] theorem tablesCanonical_setHeld {s : State} (h : TablesCanonical s) (n : Nat) (v : Bool) :
    TablesCanonical (s.setHeld n v) := by
  obtain ⟨h0, h1, h2, h3, h4, h5, h6, h7, h8, h9, h10, h11, h12, h13, h14, h15, h16⟩ := h
  exact ⟨h0, Table.wf_set _ _ _ _ h1, h2, h3, h4, h5, h6, h7, h8, h9, h10, h11, h12, h13, h14, h15, h16⟩

@[simp] theorem tablesCanonical_setTracker {s : State} (h : TablesCanonical s) (n : Nat) (v : Tracker) :
    TablesCanonical (s.setTracker n v) := by
  obtain ⟨h0, h1, h2, h3, h4, h5, h6, h7, h8, h9, h10, h11, h12, h13, h14, h15, h16⟩ := h
  exact ⟨h0, h1, h2, h3, h4, h5, h6, h7, h8, Table.wf_set _ _ _ _ h9, h10, h11, h12, h13, h14, h15, h16⟩

@[simp] theorem tablesCanonical_setMonitor {s : State} (h : TablesCanonical s) (n : Nat) (v : MonitorRecord) :
    TablesCanonical (s.setMonitor n v) := by
  obtain ⟨h0, h1, h2, h3, h4, h5, h6, h7, h8, h9, h10, h11, h12, h13, h14, h15, h16⟩ := h
  exact ⟨h0, h1, h2, h3, h4, h5, h6, h7, h8, h9, Table.wf_set _ _ _ _ h10, h11, h12, h13, h14, h15, h16⟩

@[simp] theorem tablesCanonical_setFloorEntry {s : State} (h : TablesCanonical s) (n : Nat) (v : FloorEntry) :
    TablesCanonical (s.setFloorEntry n v) := by
  obtain ⟨h0, h1, h2, h3, h4, h5, h6, h7, h8, h9, h10, h11, h12, h13, h14, h15, h16⟩ := h
  exact ⟨h0, h1, h2, h3, h4, h5, h6, h7, h8, h9, h10, Table.wf_set _ _ _ _ h11, h12, h13, h14, h15, h16⟩

@[simp] theorem tablesCanonical_setRosterEntry {s : State} (h : TablesCanonical s) (n : Nat) (v : Option RosterEntry) :
    TablesCanonical (s.setRosterEntry n v) := by
  obtain ⟨h0, h1, h2, h3, h4, h5, h6, h7, h8, h9, h10, h11, h12, h13, h14, h15, h16⟩ := h
  exact ⟨h0, h1, h2, h3, h4, h5, h6, h7, h8, h9, h10, h11, h12, Table.wf_set _ _ _ _ h13, h14, h15, h16⟩

@[simp] theorem tablesCanonical_setLinkOf {s : State} (h : TablesCanonical s) (n : Nat) (v : LinkRecord) :
    TablesCanonical (s.setLinkOf n v) := by
  obtain ⟨h0, h1, h2, h3, h4, h5, h6, h7, h8, h9, h10, h11, h12, h13, h14, h15, h16⟩ := h
  exact ⟨h0, h1, h2, h3, h4, h5, h6, h7, h8, h9, h10, h11, h12, h13, Table.wf_set _ _ _ _ h14, h15, h16⟩

@[simp] theorem tablesCanonical_setLine {s : State} (h : TablesCanonical s) (n : Nat) (v : Line) :
    TablesCanonical (s.setLine n v) := by
  obtain ⟨h0, h1, h2, h3, h4, h5, h6, h7, h8, h9, h10, h11, h12, h13, h14, h15, h16⟩ := h
  exact ⟨h0, h1, h2, h3, h4, h5, h6, h7, h8, h9, h10, h11, h12, h13, h14, Table.wf_set _ _ _ _ h15, h16⟩

@[simp] theorem tablesCanonical_setRaisedFlags {s : State} (h : TablesCanonical s) (n : Nat) (v : Byte) :
    TablesCanonical (s.setRaisedFlags n v) := by
  obtain ⟨h0, h1, h2, h3, h4, h5, h6, h7, h8, h9, h10, h11, h12, h13, h14, h15, h16⟩ := h
  exact ⟨h0, h1, h2, h3, h4, h5, h6, h7, h8, h9, h10, h11, h12, h13, h14, h15, Table.wf_set _ _ _ _ h16⟩

@[simp] theorem tablesCanonical_setForce {s : State} (h : TablesCanonical s) (n : Nat) (v : Option Force) :
    TablesCanonical (s.setForce n v) := by
  obtain ⟨h0, h1, h2, h3, h4, h5, h6, h7, h8, h9, h10, h11, h12, h13, h14, h15, h16⟩ := h
  exact ⟨h0, h1, h2, h3, h4, h5, Table.wf_set _ _ _ _ h6, h7, h8, h9, h10, h11, h12, h13, h14, h15, h16⟩

@[simp] theorem tablesCanonical_setGoverning {s : State} (h : TablesCanonical s) (n : Nat) (v : Governing) :
    TablesCanonical (s.setGoverning n v) := by
  obtain ⟨h0, h1, h2, h3, h4, h5, h6, h7, h8, h9, h10, h11, h12, h13, h14, h15, h16⟩ := h
  exact ⟨h0, h1, h2, h3, h4, h5, h6, Table.wf_set _ _ _ _ h7, h8, h9, h10, h11, h12, h13, h14, h15, h16⟩

@[simp] theorem tablesCanonical_freeSlot {s : State} (h : TablesCanonical s) (n : Nat) :
    TablesCanonical (freeSlot n s) := tablesCanonical_setSlot h n Slot.empty

@[simp] theorem tablesCanonical_takeReference {s : State} (h : TablesCanonical s) (n : Nat) :
    TablesCanonical (takeReference n s) := tablesCanonical_setSlot h n _

@[simp] theorem tablesCanonical_releaseReference {s : State} (h : TablesCanonical s) (n : Nat) :
    TablesCanonical (releaseReference n s) := by
  rcases releaseReference_cases n s with ⟨-, -, e⟩ | ⟨-, e⟩ <;> rw [e] <;> simp [h]

@[simp] theorem tablesCanonical_retireSlot {s : State} (h : TablesCanonical s) (n : Nat) :
    TablesCanonical (retireSlot n s) := by
  rcases retireSlot_cases n s with ⟨-, e⟩ | ⟨-, e⟩ <;> rw [e] <;> simp [h]

@[simp] theorem tablesCanonical_judgeSettled {s : State} (h : TablesCanonical s) (g : Nat) :
    TablesCanonical (judgeSettled g s) := by
  rcases judgeSettled_cases g s with ⟨-, -, _, e⟩ | ⟨-, e⟩ <;> rw [e] <;> simp [h]

@[simp] theorem tablesCanonical_tellGroup {s : State} (h : TablesCanonical s) (n : Nat) (a b : Bool) :
    TablesCanonical (tellGroup n a b s) := by
  unfold tellGroup
  dsimp only
  (repeat' split) <;> simp [h]

@[simp] theorem tablesCanonical_issue {s : State} (h : TablesCanonical s) (n : Nat) (d : Decision)
    (target : Option TargetId) (basis : Option Basis) (cause : OrderCause) (lag : Option Nat) :
    TablesCanonical (issue n d target basis cause lag s) := by
  rw [issue_eq]; simp [h]

end Sys2Proof.Machine
end

