-- ==== Sys2Proof/Laws/Fixed.lean ====
section
/-! SUPPORT. What no operation of the planning, tracking and line blocks touches: the queue of commands, the Floor Store,
the Nonvolatile Store, the Start-up Control, the pins, the Time Base, the reset cause, and the receive side of the
Link Controller. One lemma for each operation says so once. -/

namespace Sys2Proof.Machine

/-- The parts of the state that only the Time Base, the Floor Store, the Nonvolatile Store, the Start-up Control and the
Link Controller itself change. -/
structure Fixed where
  pending : List Instr
  floors : FloorStore
  store : NvStore
  startUp : StartUp
  pins : Pins
  time : TimeBase
  cause : ResetCause
  queue : List RequestRecord
  refusals : List (Byte × Byte)
  framer : Framer
  inFlight : Option TxFrame
  stopped : Bool
  rate : Nat
  rejectedTotal : Nat
  refusalTotal : Nat

/-- The fixed part of a state. -/
def fixedPart (s : State) : Fixed :=
  { pending := s.pending, floors := s.floors, store := s.store, startUp := s.startUp, pins := s.pins,
    time := s.time, cause := s.retained.cause, queue := s.link.queue, refusals := s.link.refusals,
    framer := s.link.framer, inFlight := s.link.inFlight, stopped := s.link.stopped, rate := s.link.rate,
    rejectedTotal := s.link.rejectedTotal, refusalTotal := s.link.refusalTotal }

theorem fixedPart_congr {s t : State} (h : fixedPart t = fixedPart s) :
    t.pending = s.pending ∧ t.floors = s.floors ∧ t.store = s.store ∧ t.startUp = s.startUp
      ∧ t.pins = s.pins ∧ t.time = s.time ∧ t.retained.cause = s.retained.cause
      ∧ t.link.queue = s.link.queue ∧ t.link.framer = s.link.framer ∧ t.link.stopped = s.link.stopped := by
  simp only [fixedPart, Fixed.mk.injEq] at h
  exact ⟨h.1, h.2.1, h.2.2.1, h.2.2.2.1, h.2.2.2.2.1, h.2.2.2.2.2.1, h.2.2.2.2.2.2.1,
    h.2.2.2.2.2.2.2.1, h.2.2.2.2.2.2.2.2.2.1, h.2.2.2.2.2.2.2.2.2.2.2.1⟩

/-- A list applied one after another keeps what each application keeps. -/
theorem forEach_keeps {α β : Type} (π : State → β) (l : List α) (f : α → State → State)
    (h : ∀ x s, π (f x s) = π s) (s : State) : π (forEach l f s) = π s := by
  unfold forEach
  induction l generalizing s with
  | nil => rfl
  | cons x r ih => rw [List.foldl_cons, ih, h]

/-- A repeated operation keeps what one application keeps. -/
theorem repeat_keeps {β : Type} (π : State → β) (n : Nat) (f : State → State) (h : ∀ s, π (f s) = π s)
    (s : State) : π (Nat.repeat f n s) = π s := by
  induction n with
  | zero => rfl
  | succ k ih => rw [Nat.repeat, h, ih]

@[simp] theorem fixedPart_forEach {α : Type} (l : List α) (f : α → State → State)
    (h : ∀ x s, fixedPart (f x s) = fixedPart s) (s : State) : fixedPart (forEach l f s) = fixedPart s :=
  forEach_keeps fixedPart l f h s

@[simp] theorem fixedPart_repeat (n : Nat) (f : State → State) (h : ∀ s, fixedPart (f s) = fixedPart s)
    (s : State) : fixedPart (Nat.repeat f n s) = fixedPart s := repeat_keeps fixedPart n f h s

@[simp] theorem fixedPart_raise (kind : NoticeKind) (fields : List Field) (s : State) :
    fixedPart (raise kind fields s) = fixedPart s := by
  unfold raise
  dsimp only
  split <;> rfl

@[simp] theorem fixedPart_answer (kind tag : Byte) (status : Status) (fields : List Field) (s : State) :
    fixedPart (answer kind tag status fields s) = fixedPart s := rfl

/-! ### Ops -/

@[simp] theorem fixedPart_setSlot (s : State) (n : Nat) (v : Slot) :
    fixedPart (State.setSlot s n v) = fixedPart s := rfl

@[simp] theorem fixedPart_setGroup (s : State) (g : Nat) (v : GroupRecord) :
    fixedPart (State.setGroup s g v) = fixedPart s := rfl

@[simp] theorem fixedPart_setResume (s : State) (g : Nat) (v : ResumeRecord) :
    fixedPart (State.setResume s g v) = fixedPart s := rfl

@[simp] theorem fixedPart_setHeld (s : State) (n : Nat) (b : Bool) :
    fixedPart (State.setHeld s n b) = fixedPart s := rfl

@[simp] theorem fixedPart_setTracker (s : State) (n : Nat) (v : Tracker) :
    fixedPart (State.setTracker s n v) = fixedPart s := rfl

@[simp] theorem fixedPart_setMonitor (s : State) (n : Nat) (v : MonitorRecord) :
    fixedPart (State.setMonitor s n v) = fixedPart s := rfl

@[simp] theorem fixedPart_setRosterEntry (s : State) (n : Nat) (v : Option RosterEntry) :
    fixedPart (State.setRosterEntry s n v) = fixedPart s := rfl

@[simp] theorem fixedPart_setLinkOf (s : State) (n : Nat) (v : LinkRecord) :
    fixedPart (State.setLinkOf s n v) = fixedPart s := rfl

@[simp] theorem fixedPart_setLine (s : State) (l : Nat) (v : Line) :
    fixedPart (State.setLine s l v) = fixedPart s := rfl

@[simp] theorem fixedPart_setRaisedFlags (s : State) (n : Nat) (v : Byte) :
    fixedPart (State.setRaisedFlags s n v) = fixedPart s := rfl

@[simp] theorem fixedPart_setForce (s : State) (g : Nat) (v : Option Force) :
    fixedPart (State.setForce s g v) = fixedPart s := rfl

@[simp] theorem fixedPart_setGoverning (s : State) (g : Nat) (v : Governing) :
    fixedPart (State.setGoverning s g v) = fixedPart s := rfl

/-! ### Flags -/

@[simp] theorem fixedPart_recomputeAttn (s : State) :
    fixedPart (recomputeAttn s) = fixedPart s := rfl

/-! ### Library -/

@[simp] theorem fixedPart_askPass (p : PassAsk) (s : State) :
    fixedPart (askPass p s) = fixedPart s := by
  unfold askPass
  (repeat' split) <;> first | rfl | simp

@[simp] theorem fixedPart_freeSlot (n : Nat) (s : State) :
    fixedPart (freeSlot n s) = fixedPart s := rfl

@[simp] theorem fixedPart_takeReference (n : Nat) (s : State) :
    fixedPart (takeReference n s) = fixedPart s := rfl

@[simp] theorem fixedPart_releaseReference (n : Nat) (s : State) :
    fixedPart (releaseReference n s) = fixedPart s := by
  unfold releaseReference
  dsimp only
  split <;> simp

@[simp] theorem fixedPart_retireSlot (n : Nat) (s : State) :
    fixedPart (retireSlot n s) = fixedPart s := by
  unfold retireSlot
  split <;> simp

@[simp] theorem fixedPart_raisePlanChecked (n plan result index : Nat) (code : Option CheckCode) (superseded : Option (Nat × SlotState)) (s : State) :
    fixedPart (raisePlanChecked n plan result index code superseded s) = fixedPart s := by
  simp [raisePlanChecked]

@[simp] theorem fixedPart_failCheck (n check index : Nat) (s : State) :
    fixedPart (failCheck n check index s) = fixedPart s := by
  simp [failCheck]

@[simp] theorem fixedPart_passCheck (n : Nat) (superseded : Option Nat) (s : State) :
    fixedPart (passCheck n superseded s) = fixedPart s := by
  unfold passCheck
  split <;> simp

@[simp] theorem fixedPart_planCheckStart (s : State) :
    fixedPart (planCheckStart s) = fixedPart s := by
  unfold planCheckStart
  (repeat' split) <;> first | rfl | simp

@[simp] theorem fixedPart_planCheckEnd (s : State) :
    fixedPart (planCheckEnd s) = fixedPart s := by
  unfold planCheckEnd
  dsimp only
  (repeat' split) <;> first | (simp; done) | (simp; rfl)

@[simp] theorem fixedPart_refuse (kind tag : Byte) (status : Status) (s : State) :
    fixedPart (refuse kind tag status s) = fixedPart s := rfl

@[simp] theorem fixedPart_serveTakeSlot (tag : Byte) (s : State) :
    fixedPart (serveTakeSlot tag s) = fixedPart s := by
  unfold serveTakeSlot
  (repeat' split) <;> first | rfl | simp

@[simp] theorem fixedPart_serveWritePlanHeader (tag : Byte) (n : Nat) (h : RawHeader) (s : State) :
    fixedPart (serveWritePlanHeader tag n h s) = fixedPart s := by
  unfold serveWritePlanHeader
  (repeat' split) <;> simp

@[simp] theorem fixedPart_serveWritePlanSites (tag : Byte) (n first : Nat) (es : List RawEntry) (s : State) :
    fixedPart (serveWritePlanSites tag n first es s) = fixedPart s := by
  unfold serveWritePlanSites
  (repeat' split) <;> simp

@[simp] theorem fixedPart_servePostPlan (tag : Byte) (n mark : Nat) (s : State) :
    fixedPart (servePostPlan tag n mark s) = fixedPart s := by
  unfold servePostPlan
  (repeat' split) <;> first | rfl | simp

@[simp] theorem fixedPart_dropCheck (n : Nat) (s : State) :
    fixedPart (dropCheck n s) = fixedPart s := rfl

@[simp] theorem fixedPart_serveWithdrawPlan (tag : Byte) (n : Nat) (s : State) :
    fixedPart (serveWithdrawPlan tag n s) = fixedPart s := by
  unfold serveWithdrawPlan
  (repeat' split) <;> simp

@[simp] theorem fixedPart_serveReadPlan (tag : Byte) (n first number : Nat) (s : State) :
    fixedPart (serveReadPlan tag n first number s) = fixedPart s := by
  unfold serveReadPlan
  split <;> simp

@[simp] theorem fixedPart_serveListPlans (tag : Byte) (selection : Byte) (first number : Nat) (s : State) :
    fixedPart (serveListPlans tag selection first number s) = fixedPart s := by
  unfold serveListPlans
  split <;> simp

/-! ### Settling -/

@[simp] theorem fixedPart_judgeSettled (g : Nat) (s : State) :
    fixedPart (judgeSettled g s) = fixedPart s := by
  unfold judgeSettled
  dsimp only
  split <;> simp

@[simp] theorem fixedPart_tellGroup (n : Nat) (wasInStep wasEligible : Bool) (s : State) :
    fixedPart (tellGroup n wasInStep wasEligible s) = fixedPart s := by
  unfold tellGroup
  dsimp only
  (repeat' split) <;> simp

@[simp] theorem fixedPart_withTold (n : Nat) (f : State → State) (s : State) (h : ∀ s, fixedPart (f s) = fixedPart s) :
    fixedPart (withTold n f s) = fixedPart s := by
  unfold withTold; simp [h]

@[simp] theorem fixedPart_observe (n : Nat) (zk : Count) (s : State) :
    fixedPart (observe n zk s) = fixedPart s := by
  unfold observe
  dsimp only
  split <;> simp

@[simp] theorem fixedPart_raiseSiteState (n g : Nat) (old new : TrackerState) (cause : StateCause) (s : State) :
    fixedPart (raiseSiteState n g old new cause s) = fixedPart s := by
  unfold raiseSiteState
  split <;> simp

@[simp] theorem fixedPart_setTrackerState (n : Nat) (st : TrackerState) (s : State) :
    fixedPart (setTrackerState n st s) = fixedPart s := rfl

@[simp] theorem fixedPart_setAnchor (n : Nat) (b : Bool) (s : State) :
    fixedPart (setAnchor n b s) = fixedPart s := rfl

@[simp] theorem fixedPart_changeState (n : Nat) (st : TrackerState) (cause : StateCause) (s : State) :
    fixedPart (changeState n st cause s) = fixedPart s := by
  unfold changeState
  rw [fixedPart_raiseSiteState, fixedPart_withTold]
  simp

@[simp] theorem fixedPart_goOffline (n : Nat) (cause : StateCause) (s : State) :
    fixedPart (goOffline n cause s) = fixedPart s := by
  simp [goOffline]

/-! ### Orders -/

@[simp] theorem fixedPart_issue (n : Nat) (d : Decision) (target : Option TargetId) (basis : Option Basis) (cause : OrderCause) (lagObserved : Option Nat) (s : State) :
    fixedPart (issue n d target basis cause lagObserved s) = fixedPart s := rfl

@[simp] theorem fixedPart_raiseSeekBlocked (n : Nat) (t : SiteTarget) (w : Needs) (s : State) :
    fixedPart (raiseSeekBlocked n t w s) = fixedPart s := by
  simp [raiseSeekBlocked]

@[simp] theorem fixedPart_noteBlocked (n : Nat) (target : AnyTarget) (d : Decision) (s : State) :
    fixedPart (noteBlocked n target d s) = fixedPart s := by
  unfold noteBlocked
  dsimp only
  (repeat' split) <;> simp

@[simp] theorem fixedPart_compute (n : Nat) (basis : Basis) (blocking : Bool) (cause : OrderCause) (lagObserved : Option Nat) (s : State) :
    fixedPart (compute n basis blocking cause lagObserved s) = fixedPart s := by
  simp [compute]

@[simp] theorem fixedPart_issueFreeing (n : Nat) (s : State) :
    fixedPart (issueFreeing n s) = fixedPart s := by
  unfold issueFreeing
  split <;> simp

@[simp] theorem fixedPart_recompute (n : Nat) (s : State) :
    fixedPart (recompute n s) = fixedPart s := by
  unfold recompute
  dsimp only
  (repeat' split) <;> simp

@[simp] theorem fixedPart_recomputeMembers (g : Nat) (s : State) :
    fixedPart (recomputeMembers g s) = fixedPart s := by
  simp [recomputeMembers]

@[simp] theorem fixedPart_evaluateTarget (n : Nat) (s : State) :
    fixedPart (evaluateTarget n s) = fixedPart s := by
  unfold evaluateTarget
  dsimp only
  (repeat' split) <;> simp

@[simp] theorem fixedPart_followSwitch (m : Nat × AnyTarget) (s : State) :
    fixedPart (followSwitch m s) = fixedPart s := by
  simp [followSwitch]

/-! ### Groups -/

@[simp] theorem fixedPart_renewEpoch (g : Nat) (s : State) :
    fixedPart (renewEpoch g s) = fixedPart s := by
  unfold renewEpoch
  dsimp only
  split <;> simp

@[simp] theorem fixedPart_raiseSwitchDone (g : Nat) (old new : Option Reference) (opening : Count) (immediate : Bool) (cohort : List Nat) (s : State) :
    fixedPart (raiseSwitchDone g old new opening immediate cohort s) = fixedPart s := by
  simp [raiseSwitchDone]

@[simp] theorem fixedPart_releaseCurrent (r : Option Reference) (s : State) :
    fixedPart (releaseCurrent r s) = fixedPart s := by
  unfold releaseCurrent
  split <;> simp

@[simp] theorem fixedPart_takeSwitch (g : Nat) (p : PendingSwitch) (immediate : Bool) (s : State) :
    fixedPart (takeSwitch g p immediate s) = fixedPart s := by
  simp [takeSwitch]

@[simp] theorem fixedPart_takeIfDue (g : Nat) (s : State) :
    fixedPart (takeIfDue g s) = fixedPart s := by
  unfold takeIfDue
  (repeat' split) <;> simp

@[simp] theorem fixedPart_takeTarget (t : Target) (s : State) :
    fixedPart (takeTarget t s) = fixedPart s := by
  unfold takeTarget
  split <;> simp

@[simp] theorem fixedPart_releaseTarget (t : Target) (s : State) :
    fixedPart (releaseTarget t s) = fixedPart s := by
  unfold releaseTarget
  split <;> simp

@[simp] theorem fixedPart_leaveCohort (g : Nat) (s : State) :
    fixedPart (leaveCohort g s) = fixedPart s := by
  unfold leaveCohort
  exact fixedPart_forEach _ _ (by simp) _

@[simp] theorem fixedPart_openSwitch (q : SwitchRequest) (delay : Nat) (s : State) :
    fixedPart (openSwitch q delay s) = fixedPart s := by
  unfold openSwitch
  split <;> simp

@[simp] theorem fixedPart_retarget (g : Nat) (p : PendingSwitch) (t : Target) (s : State) :
    fixedPart (retarget g p t s) = fixedPart s := by
  simp [retarget]

@[simp] theorem fixedPart_cancel (g : Nat) (p : PendingSwitch) (s : State) :
    fixedPart (cancel g p s) = fixedPart s := by
  simp [cancel]

@[simp] theorem fixedPart_serveSwitch (q : SwitchRequest) (delay : Nat) (s : State) :
    fixedPart (serveSwitch q delay s) = fixedPart s := by
  unfold serveSwitch
  dsimp only
  (repeat' split) <;> simp

@[simp] theorem fixedPart_handOver (qs : List SwitchRequest) (s : State) :
    fixedPart (handOver qs s) = fixedPart s := by
  simp [handOver]

@[simp] theorem fixedPart_joinGroup (g : Nat) (s : State) :
    fixedPart (joinGroup g s) = fixedPart s := by
  unfold joinGroup
  dsimp only
  (repeat' split) <;> simp

@[simp] theorem fixedPart_emptyGroup (g : Nat) (s : State) :
    fixedPart (emptyGroup g s) = fixedPart s := by
  unfold emptyGroup
  dsimp only
  split <;> simp

@[simp] theorem fixedPart_leaveGroup (g n : Nat) (inStep : Bool) (s : State) :
    fixedPart (leaveGroup g n inStep s) = fixedPart s := by
  unfold leaveGroup
  dsimp only
  (repeat' split) <;> simp

@[simp] theorem fixedPart_serveGroupStatus (tag : Byte) (g : Nat) (s : State) :
    fixedPart (serveGroupStatus tag g s) = fixedPart s := by
  unfold serveGroupStatus
  split <;> simp

/-! ### Schedule -/

@[simp] theorem fixedPart_raisePlanMissing (g day minute : Nat) (r : Resolution) (s : State) :
    fixedPart (raisePlanMissing g day minute r s) = fixedPart s := by
  simp [raisePlanMissing]

@[simp] theorem fixedPart_raiseEntryTaken (g day minute : Nat) (kind : SourceKind) (r : Resolution) (s : State) :
    fixedPart (raiseEntryTaken g day minute kind r s) = fixedPart s := by
  simp [raiseEntryTaken]

@[simp] theorem fixedPart_noteEntryTaken (g day minute : Nat) (before : SourceId) (r : Resolution) (s : State) :
    fixedPart (noteEntryTaken g day minute before r s) = fixedPart s := by
  unfold noteEntryTaken
  (repeat' split) <;> simp

@[simp] theorem fixedPart_expireForces (day minute : Nat) (s : State) :
    fixedPart (expireForces day minute s) = fixedPart s := rfl

@[simp] theorem fixedPart_resolveGroup (day minute : Nat) (t0 : Count) (g : Nat)
    (acc : State × List SwitchRequest) :
    fixedPart (resolveGroup day minute t0 g acc).1 = fixedPart acc.1 := by
  unfold resolveGroup
  dsimp only
  (repeat' split) <;> simp

@[simp] theorem fixedPart_resolverPassAt (day minute : Nat) (t0 : Count) (s : State) :
    fixedPart (resolverPassAt day minute t0 s) = fixedPart s := by
  have fold : ∀ (l : List Nat) (acc : State × List SwitchRequest), fixedPart (l.foldl
      (fun acc g => resolveGroup day minute t0 g acc) acc).1 = fixedPart acc.1 := by
    intro l
    induction l with
    | nil => intro acc; rfl
    | cons g r ih => intro acc; rw [List.foldl_cons, ih, fixedPart_resolveGroup]
  unfold resolverPassAt
  dsimp only
  rw [fixedPart_handOver, fold, fixedPart_expireForces]

@[simp] theorem fixedPart_runOwedPass (s : State) :
    fixedPart (runOwedPass s) = fixedPart s := by
  unfold runOwedPass
  split
  · rfl
  · dsimp only
    split <;> rw [fixedPart_resolverPassAt] <;> rfl

@[simp] theorem fixedPart_serveWriteDayProgram (tag : Byte) (p : Nat) (es : List RawProgramEntry) (s : State) :
    fixedPart (serveWriteDayProgram tag p es s) = fixedPart s := by
  unfold serveWriteDayProgram
  dsimp only
  (repeat' split) <;> first | (simp; done) | (simp; rfl)

@[simp] theorem fixedPart_serveReadDayProgram (tag : Byte) (p : Nat) (s : State) :
    fixedPart (serveReadDayProgram tag p s) = fixedPart s := by
  unfold serveReadDayProgram
  split <;> simp

@[simp] theorem fixedPart_serveWriteWeek (tag : Byte) (g : Nat) (ps : List Nat) (s : State) :
    fixedPart (serveWriteWeek tag g ps s) = fixedPart s := by
  unfold serveWriteWeek
  dsimp only
  (repeat' split) <;> first | (simp; done) | (simp; rfl)

@[simp] theorem fixedPart_serveReadWeek (tag : Byte) (g : Nat) (s : State) :
    fixedPart (serveReadWeek tag g s) = fixedPart s := by
  unfold serveReadWeek
  split <;> simp

@[simp] theorem fixedPart_serveWriteEvent (tag : Byte) (e : RawEvent) (s : State) :
    fixedPart (serveWriteEvent tag e s) = fixedPart s := by
  unfold serveWriteEvent
  dsimp only
  (repeat' split) <;> first | (simp; done) | (simp; rfl)

@[simp] theorem fixedPart_serveDeleteEvent (tag : Byte) (id : Nat) (s : State) :
    fixedPart (serveDeleteEvent tag id s) = fixedPart s := by
  unfold serveDeleteEvent
  dsimp only
  (repeat' split) <;> first | (simp; done) | (simp; rfl)

@[simp] theorem fixedPart_serveReadEvent (tag : Byte) (id next : Nat) (s : State) :
    fixedPart (serveReadEvent tag id next s) = fixedPart s := by
  unfold serveReadEvent
  (repeat' split) <;> simp

@[simp] theorem fixedPart_serveForcePlan (tag : Byte) (plan duration : Nat) (gs : List Nat) (s : State) :
    fixedPart (serveForcePlan tag plan duration gs s) = fixedPart s := by
  unfold serveForcePlan
  dsimp only
  (repeat' split) <;> first | (simp; done) | (simp; rw [fixedPart_forEach] <;> simp)

@[simp] theorem fixedPart_serveReleaseForce (tag : Byte) (gs : List Nat) (s : State) :
    fixedPart (serveReleaseForce tag gs s) = fixedPart s := by
  unfold serveReleaseForce
  dsimp only
  (repeat' split) <;> first | (simp; done) | (simp; rw [fixedPart_forEach] <;> simp)

/-! ### Monitor -/

@[simp] theorem fixedPart_noteDisturbance (n : Nat) (r : Report) (s : State) :
    fixedPart (noteDisturbance n r s) = fixedPart s := by
  unfold noteDisturbance
  split <;> simp

@[simp] theorem fixedPart_setHandedCm (s : State) (l : List (Nat × Report)) :
    fixedPart (State.setHandedCm s l) = fixedPart s := rfl

@[simp] theorem fixedPart_takeCmReport (n : Nat) (s : State) :
    fixedPart (takeCmReport n s) = fixedPart s := by
  unfold takeCmReport
  split <;> simp

@[simp] theorem fixedPart_takeCmReports (n : Nat) (s : State) :
    fixedPart (takeCmReports n s) = fixedPart s := by
  simp [takeCmReports]

@[simp] theorem fixedPart_raiseSiteHeld (z : HandedZero) (s : State) :
    fixedPart (raiseSiteHeld z s) = fixedPart s := by
  simp [raiseSiteHeld]

@[simp] theorem fixedPart_holdIfDue (z : HandedZero) (s : State) :
    fixedPart (holdIfDue z s) = fixedPart s := by
  unfold holdIfDue
  split
  · rw [fixedPart_raiseSiteHeld, fixedPart_withTold]
    simp
  · rfl

@[simp] theorem fixedPart_applyVerdict (z : HandedZero) (s : State) :
    fixedPart (applyVerdict z s) = fixedPart s := by
  unfold applyVerdict
  dsimp only
  split <;> simp

@[simp] theorem fixedPart_raiseWatch (z : HandedZero) (verdict : CycleVerdict) (s : State) :
    fixedPart (raiseWatch z verdict s) = fixedPart s := by
  simp [raiseWatch]

@[simp] theorem fixedPart_watchZero (z : HandedZero) (verdict : CycleVerdict) (s : State) :
    fixedPart (watchZero z verdict s) = fixedPart s := by
  unfold watchZero
  split <;> simp

@[simp] theorem fixedPart_setZeros (s : State) (l : List HandedZero) :
    fixedPart (State.setZeros s l) = fixedPart s := rfl

@[simp] theorem fixedPart_judgeNext (n : Nat) (s : State) :
    fixedPart (judgeNext n s) = fixedPart s := by
  unfold judgeNext
  split <;> simp

@[simp] theorem fixedPart_judgeWaiting (n : Nat) (s : State) :
    fixedPart (judgeWaiting n s) = fixedPart s := by
  simp [judgeWaiting]

@[simp] theorem fixedPart_clearHold (n : Nat) (s : State) :
    fixedPart (clearHold n s) = fixedPart s := by
  unfold clearHold
  dsimp only
  (repeat' split) <;> first | (simp; done) | (rw [fixedPart_withTold] <;> simp)

@[simp] theorem fixedPart_reanchor (n : Nat) (s : State) :
    fixedPart (reanchor n s) = fixedPart s := by
  unfold reanchor
  split <;> simp

@[simp] theorem fixedPart_releaseSite (n : Nat) (s : State) :
    fixedPart (releaseSite n s) = fixedPart s := by
  simp [releaseSite]

@[simp] theorem fixedPart_serveReleaseHold (tag : Byte) (n : Nat) (s : State) :
    fixedPart (serveReleaseHold tag n s) = fixedPart s := by
  unfold serveReleaseHold
  (repeat' split) <;> simp

@[simp] theorem fixedPart_serveSetMonitor (tag : Byte) (read tolerance code : Nat) (s : State) :
    fixedPart (serveSetMonitor tag read tolerance code s) = fixedPart s := by
  unfold serveSetMonitor
  (repeat' split) <;> first | rfl | simp

@[simp] theorem fixedPart_serveWatch (tag : Byte) (n : Nat) (s : State) :
    fixedPart (serveWatch tag n s) = fixedPart s := by
  unfold serveWatch
  (repeat' split) <;> first | rfl | simp

@[simp] theorem fixedPart_forgetMonitor (n : Nat) (s : State) :
    fixedPart (forgetMonitor n s) = fixedPart s := rfl

/-! ### Tracking -/

@[simp] theorem fixedPart_storeZero (n : Nat) (r : Report) (s : State) :
    fixedPart (storeZero n r s) = fixedPart s := rfl

@[simp] theorem fixedPart_handAndCompute (n : Nat) (e : StuReport) (before : Tracker) (lagObserved : Option Nat) (judgeFirst : Bool) (s : State) :
    fixedPart (handAndCompute n e before lagObserved judgeFirst s) = fixedPart s := by
  unfold handAndCompute
  split <;> simp

@[simp] theorem fixedPart_classifyAt (n : Nat) (t : SiteTarget) (zk : Count) (s : State) :
    fixedPart (classifyAt n t zk s) = fixedPart s := by
  unfold classifyAt
  dsimp only
  split <;> simp

@[simp] theorem fixedPart_observedZero (n : Nat) (e : StuReport) (judgeFirst : Bool) (s : State) :
    fixedPart (observedZero n e judgeFirst s) = fixedPart s := by
  unfold observedZero
  dsimp only
  split <;> simp

@[simp] theorem fixedPart_flaggedZero (n : Nat) (e : StuReport) (judgeFirst : Bool) (s : State) :
    fixedPart (flaggedZero n e judgeFirst s) = fixedPart s := by
  simp [flaggedZero]

@[simp] theorem fixedPart_computeFirst (n : Nat) (r : Report) (s : State) :
    fixedPart (computeFirst n r s) = fixedPart s := by
  simp [computeFirst]

@[simp] theorem fixedPart_firstReport (n : Nat) (r : Report) (s : State) :
    fixedPart (firstReport n r s) = fixedPart s := by
  simp [firstReport]

@[simp] theorem fixedPart_comeOnline (n : Nat) (r : Report) (s : State) :
    fixedPart (comeOnline n r s) = fixedPart s := by
  unfold comeOnline
  (repeat' split) <;> simp

@[simp] theorem fixedPart_blockedReport (n : Nat) (e : StuReport) (showsZero judgeFirst : Bool) (s : State) :
    fixedPart (blockedReport n e showsZero judgeFirst s) = fixedPart s := by
  unfold blockedReport
  split <;> simp

@[simp] theorem fixedPart_trackReport (n : Nat) (e : StuReport) (judgeFirst : Bool) (s : State) :
    fixedPart (trackReport n e judgeFirst s) = fixedPart s := by
  unfold trackReport
  dsimp only
  (repeat' split) <;> simp

@[simp] theorem fixedPart_takeStuReport (n : Nat) (judgeFirst : Bool) (s : State) :
    fixedPart (takeStuReport n judgeFirst s) = fixedPart s := by
  unfold takeStuReport
  dsimp only
  (repeat' split) <;> first | (simp; done) | (simp; rfl)

@[simp] theorem fixedPart_dropStuReports (n : Nat) (s : State) :
    fixedPart (dropStuReports n s) = fixedPart s := rfl

@[simp] theorem fixedPart_dropReports (n : Nat) (s : State) :
    fixedPart (dropReports n s) = fixedPart s := rfl

@[simp] theorem fixedPart_trackOffline (n : Nat) (cause : StateCause) (s : State) :
    fixedPart (trackOffline n cause s) = fixedPart s := by
  simp [trackOffline]

@[simp] theorem fixedPart_trackMoved (n : Nat) (s : State) :
    fixedPart (trackMoved n s) = fixedPart s := by
  simp [trackMoved]

@[simp] theorem fixedPart_trackRegrouped (n : Nat) (s : State) :
    fixedPart (trackRegrouped n s) = fixedPart s := by
  unfold trackRegrouped
  dsimp only
  split <;> simp

@[simp] theorem fixedPart_serveSiteStatus (tag : Byte) (n : Nat) (s : State) :
    fixedPart (serveSiteStatus tag n s) = fixedPart s := by
  unfold serveSiteStatus
  (repeat' split) <;> simp

/-! ### FlagUnit -/

@[simp] theorem fixedPart_raiseFlagsRaised (n : Nat) (r : Report) (added : Byte) (s : State) :
    fixedPart (raiseFlagsRaised n r added s) = fixedPart s := by
  simp [raiseFlagsRaised]

@[simp] theorem fixedPart_latchFlags (n : Nat) (r : Report) (s : State) :
    fixedPart (latchFlags n r s) = fixedPart s := by
  unfold latchFlags
  dsimp only
  split <;> simp

@[simp] theorem fixedPart_takeFuReport (n : Nat) (s : State) :
    fixedPart (takeFuReport n s) = fixedPart s := by
  unfold takeFuReport
  dsimp only
  (repeat' split) <;> first | (simp; done) | (simp; rfl)

@[simp] theorem fixedPart_forgetFlags (n : Nat) (s : State) :
    fixedPart (forgetFlags n s) = fixedPart s := rfl

@[simp] theorem fixedPart_serveClearFlags (tag : Byte) (n : Nat) (flags : Byte) (s : State) :
    fixedPart (serveClearFlags tag n flags s) = fixedPart s := by
  have fold : ∀ (l : List Nat) (acc : Nat × State),
      fixedPart (l.foldl (fun acc k => clearSite flags k acc) acc).2 = fixedPart acc.2 := by
    intro l
    induction l with
    | nil => intro acc; rfl
    | cons g r ih => intro acc; rw [List.foldl_cons, ih]; rfl
  have one : ∀ k (acc : Nat × State), fixedPart (clearSite flags k acc).2 = fixedPart acc.2 :=
    fun _ _ => rfl
  unfold serveClearFlags
  dsimp only
  (repeat' split) <;> simp [fold, one]

@[simp] theorem fixedPart_serveSetFlagMask (tag : Byte) (read : Nat) (mask : Byte) (s : State) :
    fixedPart (serveSetFlagMask tag read mask s) = fixedPart s := by
  unfold serveSetFlagMask
  (repeat' split) <;> first | rfl | simp

/-! ### Lines -/

@[simp] theorem fixedPart_raiseLineState (l : Nat) (old new : LineState) (site : Option Nat) (s : State) :
    fixedPart (raiseLineState l old new site s) = fixedPart s := by
  simp [raiseLineState]

@[simp] theorem fixedPart_recomputeLine (l : Nat) (site : Option Nat) (s : State) :
    fixedPart (recomputeLine l site s) = fixedPart s := by
  unfold recomputeLine
  dsimp only
  split <;> simp

@[simp] theorem fixedPart_startRound (l : Nat) (s : State) :
    fixedPart (startRound l s) = fixedPart s := by
  unfold startRound
  split <;> simp

@[simp] theorem fixedPart_finishRound (l : Nat) (s : State) :
    fixedPart (finishRound l s) = fixedPart s := by
  simp [finishRound]

@[simp] theorem fixedPart_finishIfDone (l : Nat) (s : State) :
    fixedPart (finishIfDone l s) = fixedPart s := by
  unfold finishIfDone
  split <;> simp

@[simp] theorem fixedPart_endEmptyRound (l : Nat) (s : State) :
    fixedPart (endEmptyRound l s) = fixedPart s := by
  unfold endEmptyRound
  dsimp only
  split <;> simp

@[simp] theorem fixedPart_voidExchange (l n : Nat) (s : State) :
    fixedPart (voidExchange l n s) = fixedPart s := rfl

@[simp] theorem fixedPart_leavePollList (l n : Nat) (s : State) :
    fixedPart (leavePollList l n s) = fixedPart s := by
  unfold leavePollList
  dsimp only
  split <;> simp

@[simp] theorem fixedPart_joinPollList (l : Nat) (s : State) :
    fixedPart (joinPollList l s) = fixedPart s := by
  unfold joinPollList
  split <;> simp

@[simp] theorem fixedPart_sendPoll (l : Nat) (s : State) :
    fixedPart (sendPoll l s) = fixedPart s := by
  unfold sendPoll
  dsimp only
  (repeat' split) <;> simp

@[simp] theorem fixedPart_setPhase (l : Nat) (x : Exchange) (p : ExchangePhase) (s : State) :
    fixedPart (setPhase l x p s) = fixedPart s := rfl

@[simp] theorem fixedPart_pollEnds (l : Nat) (s : State) :
    fixedPart (pollEnds l s) = fixedPart s := by
  unfold pollEnds
  (repeat' split) <;> simp

@[simp] theorem fixedPart_reportStarts (l : Nat) (s : State) :
    fixedPart (reportStarts l s) = fixedPart s := by
  unfold reportStarts
  (repeat' split) <;> simp

@[simp] theorem fixedPart_latchFault (l : Nat) (f : FaultRecord) (s : State) :
    fixedPart (latchFault l f s) = fixedPart s := rfl

@[simp] theorem fixedPart_takeMiss (l : Nat) (x : Exchange) (outcome : ExchangeOutcome) (source : Option Nat) (s : State) :
    fixedPart (takeMiss l x outcome source s) = fixedPart s := by
  unfold takeMiss
  dsimp only
  split <;> simp

@[simp] theorem fixedPart_handOverReport (n : Nat) (r : Report) (s : State) :
    fixedPart (handOverReport n r s) = fixedPart s := rfl

@[simp] theorem fixedPart_takeGood (l n : Nat) (r : Report) (s : State) :
    fixedPart (takeGood l n r s) = fixedPart s := by
  unfold takeGood
  dsimp only
  split <;> simp

@[simp] theorem fixedPart_takeOutcome (l : Nat) (x : Exchange) (j : ReportJudgement) (s : State) :
    fixedPart (takeOutcome l x j s) = fixedPart s := by
  unfold takeOutcome
  (repeat' split) <;> simp

@[simp] theorem fixedPart_clearExchange (l : Nat) (s : State) :
    fixedPart (clearExchange l s) = fixedPart s := rfl

@[simp] theorem fixedPart_replyTimesOut (l : Nat) (s : State) :
    fixedPart (replyTimesOut l s) = fixedPart s := by
  unfold replyTimesOut
  (repeat' split) <;> simp

@[simp] theorem fixedPart_receptionEnds (l : Nat) (bytes : List Byte) (s : State) :
    fixedPart (receptionEnds l bytes s) = fixedPart s := by
  unfold receptionEnds
  (repeat' split) <;> simp

@[simp] theorem fixedPart_disableSite (n : Nat) (s : State) :
    fixedPart (disableSite n s) = fixedPart s := by
  unfold disableSite
  dsimp only
  split <;> simp

@[simp] theorem fixedPart_disableLine (l : Nat) (s : State) :
    fixedPart (disableLine l s) = fixedPart s := by
  simp [disableLine]

@[simp] theorem fixedPart_enableLine (l : Nat) (s : State) :
    fixedPart (enableLine l s) = fixedPart s := by
  simp [enableLine]

@[simp] theorem fixedPart_applySettings (l : Nat) (v : LineSettings) (s : State) :
    fixedPart (applySettings l v s) = fixedPart s := by
  unfold applySettings
  dsimp only
  split <;> simp

@[simp] theorem fixedPart_addSite (n : Nat) (e : RosterEntry) (s : State) :
    fixedPart (addSite n e s) = fixedPart s := by
  simp [addSite]

@[simp] theorem fixedPart_moveSite (n : Nat) (old new : RosterEntry) (s : State) :
    fixedPart (moveSite n old new s) = fixedPart s := by
  unfold moveSite
  split
  · rfl
  · dsimp only
    split <;> simp

@[simp] theorem fixedPart_regroupSite (n : Nat) (old new : RosterEntry) (s : State) :
    fixedPart (regroupSite n old new s) = fixedPart s := by
  unfold regroupSite
  split <;> simp

@[simp] theorem fixedPart_putSite (n : Nat) (e : RosterEntry) (s : State) :
    fixedPart (putSite n e s) = fixedPart s := by
  unfold putSite
  split <;> simp

@[simp] theorem fixedPart_serveWriteSite (tag : Byte) (n line address group : Nat) (s : State) :
    fixedPart (serveWriteSite tag n line address group s) = fixedPart s := by
  unfold serveWriteSite
  (repeat' split) <;> simp

@[simp] theorem fixedPart_dropSite (n : Nat) (e : RosterEntry) (s : State) :
    fixedPart (dropSite n e s) = fixedPart s := by
  simp [dropSite]

@[simp] theorem fixedPart_serveRemoveSite (tag : Byte) (n : Nat) (s : State) :
    fixedPart (serveRemoveSite tag n s) = fixedPart s := by
  unfold serveRemoveSite
  (repeat' split) <;> simp

@[simp] theorem fixedPart_serveReadSite (tag : Byte) (n : Nat) (s : State) :
    fixedPart (serveReadSite tag n s) = fixedPart s := by
  unfold serveReadSite
  (repeat' split) <;> simp

@[simp] theorem fixedPart_serveLineControl (tag : Byte) (l read : Nat) (r : RawSettings) (s : State) :
    fixedPart (serveLineControl tag l read r s) = fixedPart s := by
  unfold serveLineControl
  (repeat' split) <;> simp

@[simp] theorem fixedPart_serveLineStatus (tag : Byte) (l clear : Nat) (s : State) :
    fixedPart (serveLineStatus tag l clear s) = fixedPart s := by
  unfold serveLineStatus
  (repeat' split) <;> simp

@[simp] theorem fixedPart_serveSignalSite (tag : Byte) (n : Nat) (flags : Byte) (s : State) :
    fixedPart (serveSignalSite tag n flags s) = fixedPart s := by
  unfold serveSignalSite
  (repeat' split) <;> simp

end Sys2Proof.Machine
end

