-- ==== Sys2Proof/Laws/PerInstr.lean ====
section
/-! SUPPORT. Statements made of every command, one lemma for each constructor of `Instr`. -/

namespace Sys2Proof

@[simp] theorem leBytes_length (k n : Nat) : (leBytes k n).length = k := by
  induction k generalizing n with
  | zero => rfl
  | succ k ih => simp [leBytes, ih]

/-- The bytes of a list of items of one size. -/
theorem flatMap_length {α : Type} (l : List α) (f : α → List Byte) (k : Nat) (h : ∀ x ∈ l, (f x).length = k) :
    (l.flatMap f).length = l.length * k := by
  induction l with
  | nil => simp
  | cons x r ih =>
    rw [List.flatMap_cons, List.length_append, h x (by simp), ih (fun y hy => h y (by simp [hy])), List.length_cons]
    rw [Nat.succ_mul, Nat.add_comm]

theorem fits_iff (k n : Nat) : fits k n = true ↔ n < 256 ^ k := by simp [fits]

@[simp] theorem RawHeader.bytes_length (h : RawHeader) : h.bytes.length = 10 := by simp [RawHeader.bytes]

theorem RawEntry.bytes_length (e : RawEntry) (h : e.wellFormed = true) : e.bytes.length = 22 := by
  have h8 : e.splits.length = 8 := by simp only [RawEntry.wellFormed, Bool.and_eq_true, decide_eq_true_eq] at h; exact h.1.2
  rw [RawEntry.bytes, List.length_append, flatMap_length _ _ 2 (fun _ _ => leBytes_length _ _), h8]
  simp

@[simp] theorem RawProgramEntry.bytes_length (e : RawProgramEntry) : e.bytes.length = 4 := by
  simp [RawProgramEntry.bytes]

@[simp] theorem RawEvent.bytes_length (e : RawEvent) : e.bytes.length = 16 + e.groups.length := by
  rw [RawEvent.bytes, List.length_append, flatMap_length _ _ 1 (fun _ _ => leBytes_length _ _)]
  simp

@[simp] theorem RawSettings.bytes_length (r : RawSettings) : r.bytes.length = 6 := by simp [RawSettings.bytes]

namespace Laws.WireForm

/-- A well-formed request makes a frame whose body fits (R177); a command that is no frame makes none. -/
def Statement (i : Instr) : Prop :=
  ∀ kind tag body, i.wellFormed = true → encodeRequest i = some (kind, tag, body) → body.length ≤ 1024

theorem of_none {i : Instr} (h : encodeRequest i = none) : Statement i := by
  intro kind tag body _ e
  rw [h] at e
  exact nomatch e

theorem of_body {i : Instr} {kind tag : Byte} {body : List Byte} (h : encodeRequest i = some (kind, tag, body))
    (hb : i.wellFormed = true → body.length ≤ 1024) : Statement i := by
  intro k t b w e
  rw [h, Option.some.injEq, Prod.mk.injEq, Prod.mk.injEq] at e
  rw [← e.2.2]
  exact hb w

theorem powerOn (pins : PinLevels) (cut : ProgramCut) : Statement (.powerOn pins cut) := of_none rfl

theorem resetPinAssert (cut : ProgramCut) : Statement (.resetPinAssert cut) := of_none rfl

theorem resetRelease (rate1 rate0 : Bool) : Statement (.resetRelease rate1 rate0) := of_none rfl

theorem startupEnd : Statement (.startupEnd) := of_none rfl

theorem ppsEdge (counts : Nat) : Statement (.ppsEdge counts) := of_none rfl

theorem ppsAbsence : Statement (.ppsAbsence) := of_none rfl

theorem tick : Statement (.tick) := of_none rfl

theorem slewStep : Statement (.slewStep) := of_none rfl

theorem epochRenewal (group : Nat) : Statement (.epochRenewal group) := of_none rfl

theorem windowExpiry : Statement (.windowExpiry) := of_none rfl

theorem switchTaken (group : Nat) : Statement (.switchTaken group) := of_none rfl

theorem resolverPass : Statement (.resolverPass) := of_none rfl

theorem planCheckStart : Statement (.planCheckStart) := of_none rfl

theorem planCheckEnd : Statement (.planCheckEnd) := of_none rfl

theorem floorProgrammingEnd (deaf : Image) (commit : CommitReading) (failureTakes : Bool) :
    Statement (.floorProgrammingEnd deaf commit failureTakes) := of_none rfl

theorem lockProgrammingEnd (takes : Bool) : Statement (.lockProgrammingEnd takes) := of_none rfl

theorem commissionEnDeassert : Statement (.commissionEnDeassert) := of_none rfl

theorem storeSectionWritten (readsBack : Bool) : Statement (.storeSectionWritten readsBack) := of_none rfl

theorem storeEnd : Statement (.storeEnd) := of_none rfl

theorem emptyRoundEnd (line : Nat) : Statement (.emptyRoundEnd line) := of_none rfl

theorem pollSend (line : Nat) : Statement (.pollSend line) := of_none rfl

theorem pollSent (line : Nat) : Statement (.pollSent line) := of_none rfl

theorem reportStartBit (line : Nat) : Statement (.reportStartBit line) := of_none rfl

theorem replyTimeout (line : Nat) : Statement (.replyTimeout line) := of_none rfl

theorem reportGapTimeout (line : Nat) (bytes : List Byte) : Statement (.reportGapTimeout line bytes) := of_none rfl

theorem reportReceived (line : Nat) (bytes : List Byte) : Statement (.reportReceived line bytes) := of_none rfl

theorem stuReport (site : Nat) (judgeFirst : Bool) : Statement (.stuReport site judgeFirst) := of_none rfl

theorem cmReport (site : Nat) : Statement (.cmReport site) := of_none rfl

theorem zeroJudgement (site : Nat) : Statement (.zeroJudgement site) := of_none rfl

theorem fuReport (site : Nat) : Statement (.fuReport site) := of_none rfl

theorem planningLinkByte (character : LinkCharacter) (seen : Seen) : Statement (.planningLinkByte character seen) := of_none rfl

theorem frameGapTimeout : Statement (.frameGapTimeout) := of_none rfl

theorem frameTransmitEnd (ending : FrameEnd) : Statement (.frameTransmitEnd ending) := of_none rfl

theorem unknownKind (tag kind : Byte) (body : List Byte) : Statement (.unknownKind tag kind body) := by
  refine of_body rfl (fun w => ?_)
  simp only [Instr.wellFormed, Bool.and_eq_true, decide_eq_true_eq] at w
  exact w.2

theorem identify (tag : Byte) : Statement (.identify tag) :=
  of_body rfl (fun _ => by simp)

theorem status (tag : Byte) : Statement (.status tag) :=
  of_body rfl (fun _ => by simp)

theorem restart (tag : Byte) : Statement (.restart tag) :=
  of_body rfl (fun _ => by simp)

theorem setTime (tag : Byte) (day timeOfDay : Nat) : Statement (.setTime tag day timeOfDay) :=
  of_body rfl (fun _ => by simp)

theorem getTime (tag : Byte) : Statement (.getTime tag) :=
  of_body rfl (fun _ => by simp)

theorem writeSite (tag : Byte) (site line address group : Nat) : Statement (.writeSite tag site line address group) :=
  of_body rfl (fun _ => by simp)

theorem readSite (tag : Byte) (site : Nat) : Statement (.readSite tag site) :=
  of_body rfl (fun _ => by simp)

theorem removeSite (tag : Byte) (site : Nat) : Statement (.removeSite tag site) :=
  of_body rfl (fun _ => by simp)

theorem takeSlot (tag : Byte) : Statement (.takeSlot tag) :=
  of_body rfl (fun _ => by simp)

theorem writePlanHeader (tag : Byte) (slot : Nat) (header : RawHeader) : Statement (.writePlanHeader tag slot header) :=
  of_body rfl (fun _ => by simp)

theorem writePlanSites (tag : Byte) (slot first : Nat) (entries : List RawEntry) : Statement (.writePlanSites tag slot first entries) := by
  refine of_body rfl (fun w => ?_)
  simp only [Instr.wellFormed, Bool.and_eq_true, decide_eq_true_eq, List.all_eq_true] at w
  rw [List.length_append, flatMap_length _ _ 22 (fun e he => e.bytes_length (w.1.2 e he))]
  have := w.2
  simp only [List.length_append, leBytes_length, Config.frameBody] at *
  omega

theorem postPlan (tag : Byte) (slot supersede : Nat) : Statement (.postPlan tag slot supersede) :=
  of_body rfl (fun _ => by simp)

theorem withdrawPlan (tag : Byte) (slot : Nat) : Statement (.withdrawPlan tag slot) :=
  of_body rfl (fun _ => by simp)

theorem readPlan (tag : Byte) (slot first number : Nat) : Statement (.readPlan tag slot first number) :=
  of_body rfl (fun _ => by simp)

theorem listPlans (tag : Byte) (selection : Byte) (first number : Nat) : Statement (.listPlans tag selection first number) :=
  of_body rfl (fun _ => by simp)

theorem writeDayProgram (tag : Byte) (program : Nat) (entries : List RawProgramEntry) : Statement (.writeDayProgram tag program entries) := by
  refine of_body rfl (fun w => ?_)
  simp only [Instr.wellFormed, Bool.and_eq_true, decide_eq_true_eq] at w
  rw [List.length_append, flatMap_length _ _ 4 (fun e _ => e.bytes_length)]
  have := w.2
  simp only [List.length_append, leBytes_length, Config.frameBody] at *
  omega

theorem readDayProgram (tag : Byte) (program : Nat) : Statement (.readDayProgram tag program) :=
  of_body rfl (fun _ => by simp)

theorem writeWeek (tag : Byte) (group : Nat) (programs : List Nat) : Statement (.writeWeek tag group programs) := by
  refine of_body rfl (fun w => ?_)
  simp only [Instr.wellFormed, Bool.and_eq_true, decide_eq_true_eq] at w
  rw [List.length_append, flatMap_length _ _ 1 (fun _ _ => leBytes_length _ _), w.1.2]
  simp

theorem readWeek (tag : Byte) (group : Nat) : Statement (.readWeek tag group) :=
  of_body rfl (fun _ => by simp)

theorem writeEvent (tag : Byte) (event : RawEvent) : Statement (.writeEvent tag event) := by
  refine of_body rfl (fun w => ?_)
  simp only [Instr.wellFormed, RawEvent.wellFormed, Bool.and_eq_true, fits_iff] at w
  rw [RawEvent.bytes_length]
  omega

theorem readEvent (tag : Byte) (id next : Nat) : Statement (.readEvent tag id next) :=
  of_body rfl (fun _ => by simp)

theorem deleteEvent (tag : Byte) (id : Nat) : Statement (.deleteEvent tag id) :=
  of_body rfl (fun _ => by simp)

theorem forcePlan (tag : Byte) (plan duration : Nat) (groups : List Nat) : Statement (.forcePlan tag plan duration groups) := by
  refine of_body rfl (fun w => ?_)
  simp only [Instr.wellFormed, Bool.and_eq_true, fits_iff] at w
  rw [List.length_append, flatMap_length _ _ 1 (fun _ _ => leBytes_length _ _)]
  simp only [List.length_append, leBytes_length]
  omega

theorem releaseForce (tag : Byte) (groups : List Nat) : Statement (.releaseForce tag groups) := by
  refine of_body rfl (fun w => ?_)
  simp only [Instr.wellFormed, Bool.and_eq_true, fits_iff] at w
  rw [List.length_append, flatMap_length _ _ 1 (fun _ _ => leBytes_length _ _)]
  simp only [leBytes_length]
  omega

theorem storeTables (tag : Byte) : Statement (.storeTables tag) :=
  of_body rfl (fun _ => by simp)

theorem groupStatus (tag : Byte) (group : Nat) : Statement (.groupStatus tag group) :=
  of_body rfl (fun _ => by simp)

theorem siteStatus (tag : Byte) (site : Nat) : Statement (.siteStatus tag site) :=
  of_body rfl (fun _ => by simp)

theorem releaseHold (tag : Byte) (site : Nat) : Statement (.releaseHold tag site) :=
  of_body rfl (fun _ => by simp)

theorem setMonitor (tag : Byte) (read tolerance limitCode : Nat) : Statement (.setMonitor tag read tolerance limitCode) :=
  of_body rfl (fun _ => by simp)

theorem watch (tag : Byte) (site : Nat) : Statement (.watch tag site) :=
  of_body rfl (fun _ => by simp)

theorem lineControl (tag : Byte) (line read : Nat) (settings : RawSettings) : Statement (.lineControl tag line read settings) :=
  of_body rfl (fun _ => by simp)

theorem lineStatus (tag : Byte) (line clear : Nat) : Statement (.lineStatus tag line clear) :=
  of_body rfl (fun _ => by simp)

theorem clearFlags (tag : Byte) (site : Nat) (flags : Byte) : Statement (.clearFlags tag site flags) :=
  of_body rfl (fun _ => by simp)

theorem setFlagMask (tag : Byte) (read : Nat) (mask : Byte) : Statement (.setFlagMask tag read mask) :=
  of_body rfl (fun _ => by simp)

theorem signalSite (tag : Byte) (site : Nat) (flags : Byte) : Statement (.signalSite tag site flags) :=
  of_body rfl (fun _ => by simp)

theorem openCommissioning (tag : Byte) (keyAsserted : Bool) : Statement (.openCommissioning tag keyAsserted) :=
  of_body rfl (fun _ => by simp)

theorem commissionFloor (tag : Byte) (site intervals minCycle maxCycle : Nat) (minimums : List Nat) : Statement (.commissionFloor tag site intervals minCycle maxCycle minimums) := by
  refine of_body rfl (fun w => ?_)
  simp only [Instr.wellFormed, allFit, List.all_cons, Bool.and_eq_true, fits_iff] at w
  rw [List.length_append, flatMap_length _ _ 2 (fun _ _ => leBytes_length _ _)]
  simp only [List.length_append, leBytes_length]
  omega

theorem lockFloors (tag : Byte) : Statement (.lockFloors tag) :=
  of_body rfl (fun _ => by simp)

theorem readFloor (tag : Byte) (read : FloorRead) : Statement (.readFloor tag read) :=
  of_body rfl (fun _ => by simp)

theorem startUpTablesRebuilt : Statement (.startUpTablesRebuilt) := of_none rfl

end Laws.WireForm

end Sys2Proof
end

