-- ==== Sys2Proof/Laws/SwitchFrame.lean ====
section
/-! SUPPORT. What no switch, order or change of a tracker's state touches: the Schedule Resolver, the Conformance Monitor, the
roster, the lines, the reports handed over, the Flag Unit and the hold marks. One lemma for each operation says so once. -/

namespace Sys2Proof.Machine

/-- The parts of the state that the settling, order and group operations never change. -/
structure SwitchFrame where
  resolver : Resolver
  monitor : Monitor
  roster : Table (Option RosterEntry)
  lines : Table Line
  handed : Handed
  flags : FlagUnit
  holds : Table Bool

/-- The frame of a state. -/
def switchFrame (s : State) : SwitchFrame :=
  { resolver := s.resolver, monitor := s.monitor, roster := s.roster, lines := s.lines, handed := s.handed,
    flags := s.flags, holds := s.retained.holds }

theorem switchFrame_congr {s t : State} (h : switchFrame t = switchFrame s) :
    t.resolver = s.resolver ∧ t.monitor = s.monitor ∧ t.roster = s.roster ∧ t.lines = s.lines ∧ t.handed = s.handed
      ∧ t.flags = s.flags ∧ t.retained.holds = s.retained.holds := by
  simpa only [switchFrame, SwitchFrame.mk.injEq] using h

@[simp] theorem switchFrame_forEach {α : Type} (l : List α) (f : α → State → State)
    (h : ∀ x s, switchFrame (f x s) = switchFrame s) (s : State) : switchFrame (forEach l f s) = switchFrame s :=
  forEach_keeps switchFrame l f h s

@[simp] theorem switchFrame_raise (kind : NoticeKind) (fields : List Field) (s : State) :
    switchFrame (raise kind fields s) = switchFrame s := by
  unfold raise
  dsimp only
  split <;> rfl

@[simp] theorem switchFrame_answer (kind tag : Byte) (status : Status) (fields : List Field) (s : State) :
    switchFrame (answer kind tag status fields s) = switchFrame s := rfl

@[simp] theorem switchFrame_setSlot (s : State) (n : Nat) (v : Slot) :
    switchFrame (State.setSlot s n v) = switchFrame s := rfl

@[simp] theorem switchFrame_setGroup (s : State) (g : Nat) (v : GroupRecord) :
    switchFrame (State.setGroup s g v) = switchFrame s := rfl

@[simp] theorem switchFrame_setResume (s : State) (g : Nat) (v : ResumeRecord) :
    switchFrame (State.setResume s g v) = switchFrame s := rfl

@[simp] theorem switchFrame_setTracker (s : State) (n : Nat) (v : Tracker) :
    switchFrame (State.setTracker s n v) = switchFrame s := rfl

@[simp] theorem switchFrame_setLinkOf (s : State) (n : Nat) (v : LinkRecord) :
    switchFrame (State.setLinkOf s n v) = switchFrame s := rfl

@[simp] theorem switchFrame_freeSlot (n : Nat) (s : State) :
    switchFrame (freeSlot n s) = switchFrame s := rfl

@[simp] theorem switchFrame_takeReference (n : Nat) (s : State) :
    switchFrame (takeReference n s) = switchFrame s := rfl

@[simp] theorem switchFrame_releaseReference (n : Nat) (s : State) :
    switchFrame (releaseReference n s) = switchFrame s := by
  unfold releaseReference
  dsimp only
  split <;> simp

@[simp] theorem switchFrame_retireSlot (n : Nat) (s : State) :
    switchFrame (retireSlot n s) = switchFrame s := by
  unfold retireSlot
  split <;> simp

/-! ### Settling -/

@[simp] theorem switchFrame_judgeSettled (g : Nat) (s : State) :
    switchFrame (judgeSettled g s) = switchFrame s := by
  unfold judgeSettled
  dsimp only
  split <;> simp

@[simp] theorem switchFrame_tellGroup (n : Nat) (wasInStep wasEligible : Bool) (s : State) :
    switchFrame (tellGroup n wasInStep wasEligible s) = switchFrame s := by
  unfold tellGroup
  dsimp only
  (repeat' split) <;> simp

@[simp] theorem switchFrame_withTold (n : Nat) (f : State → State) (s : State) (h : ∀ s, switchFrame (f s) = switchFrame s) :
    switchFrame (withTold n f s) = switchFrame s := by
  unfold withTold; simp [h]

@[simp] theorem switchFrame_observe (n : Nat) (zk : Count) (s : State) :
    switchFrame (observe n zk s) = switchFrame s := by
  unfold observe
  dsimp only
  split <;> simp

@[simp] theorem switchFrame_raiseSiteState (n g : Nat) (old new : TrackerState) (cause : StateCause) (s : State) :
    switchFrame (raiseSiteState n g old new cause s) = switchFrame s := by
  unfold raiseSiteState
  split <;> simp

@[simp] theorem switchFrame_setTrackerState (n : Nat) (st : TrackerState) (s : State) :
    switchFrame (setTrackerState n st s) = switchFrame s := rfl

@[simp] theorem switchFrame_setAnchor (n : Nat) (b : Bool) (s : State) :
    switchFrame (setAnchor n b s) = switchFrame s := rfl

@[simp] theorem switchFrame_changeState (n : Nat) (st : TrackerState) (cause : StateCause) (s : State) :
    switchFrame (changeState n st cause s) = switchFrame s := by
  unfold changeState
  rw [switchFrame_raiseSiteState, switchFrame_withTold]
  simp

@[simp] theorem switchFrame_goOffline (n : Nat) (cause : StateCause) (s : State) :
    switchFrame (goOffline n cause s) = switchFrame s := by
  simp [goOffline]

/-! ### Orders -/

@[simp] theorem switchFrame_issue (n : Nat) (d : Decision) (target : Option TargetId) (basis : Option Basis) (cause : OrderCause) (lagObserved : Option Nat) (s : State) :
    switchFrame (issue n d target basis cause lagObserved s) = switchFrame s := rfl

@[simp] theorem switchFrame_raiseSeekBlocked (n : Nat) (t : SiteTarget) (w : Needs) (s : State) :
    switchFrame (raiseSeekBlocked n t w s) = switchFrame s := by
  simp [raiseSeekBlocked]

@[simp] theorem switchFrame_noteBlocked (n : Nat) (target : AnyTarget) (d : Decision) (s : State) :
    switchFrame (noteBlocked n target d s) = switchFrame s := by
  unfold noteBlocked
  dsimp only
  (repeat' split) <;> simp

@[simp] theorem switchFrame_compute (n : Nat) (basis : Basis) (blocking : Bool) (cause : OrderCause) (lagObserved : Option Nat) (s : State) :
    switchFrame (compute n basis blocking cause lagObserved s) = switchFrame s := by
  simp [compute]

@[simp] theorem switchFrame_issueFreeing (n : Nat) (s : State) :
    switchFrame (issueFreeing n s) = switchFrame s := by
  unfold issueFreeing
  split <;> simp

@[simp] theorem switchFrame_recompute (n : Nat) (s : State) :
    switchFrame (recompute n s) = switchFrame s := by
  unfold recompute
  dsimp only
  (repeat' split) <;> simp

@[simp] theorem switchFrame_recomputeMembers (g : Nat) (s : State) :
    switchFrame (recomputeMembers g s) = switchFrame s := by
  simp [recomputeMembers]

@[simp] theorem switchFrame_evaluateTarget (n : Nat) (s : State) :
    switchFrame (evaluateTarget n s) = switchFrame s := by
  unfold evaluateTarget
  dsimp only
  (repeat' split) <;> simp

@[simp] theorem switchFrame_followSwitch (m : Nat × AnyTarget) (s : State) :
    switchFrame (followSwitch m s) = switchFrame s := by
  simp [followSwitch]

/-! ### Groups -/

@[simp] theorem switchFrame_renewEpoch (g : Nat) (s : State) :
    switchFrame (renewEpoch g s) = switchFrame s := by
  unfold renewEpoch
  dsimp only
  split <;> simp

@[simp] theorem switchFrame_raiseSwitchDone (g : Nat) (old new : Option Reference) (opening : Count) (immediate : Bool) (cohort : List Nat) (s : State) :
    switchFrame (raiseSwitchDone g old new opening immediate cohort s) = switchFrame s := by
  simp [raiseSwitchDone]

@[simp] theorem switchFrame_releaseCurrent (r : Option Reference) (s : State) :
    switchFrame (releaseCurrent r s) = switchFrame s := by
  unfold releaseCurrent
  split <;> simp

@[simp] theorem switchFrame_takeSwitch (g : Nat) (p : PendingSwitch) (immediate : Bool) (s : State) :
    switchFrame (takeSwitch g p immediate s) = switchFrame s := by
  simp [takeSwitch]

@[simp] theorem switchFrame_takeIfDue (g : Nat) (s : State) :
    switchFrame (takeIfDue g s) = switchFrame s := by
  unfold takeIfDue
  (repeat' split) <;> simp

@[simp] theorem switchFrame_takeTarget (t : Target) (s : State) :
    switchFrame (takeTarget t s) = switchFrame s := by
  unfold takeTarget
  split <;> simp

@[simp] theorem switchFrame_releaseTarget (t : Target) (s : State) :
    switchFrame (releaseTarget t s) = switchFrame s := by
  unfold releaseTarget
  split <;> simp

@[simp] theorem switchFrame_leaveCohort (g : Nat) (s : State) :
    switchFrame (leaveCohort g s) = switchFrame s := by
  unfold leaveCohort
  exact switchFrame_forEach _ _ (by simp) _

@[simp] theorem switchFrame_openSwitch (q : SwitchRequest) (delay : Nat) (s : State) :
    switchFrame (openSwitch q delay s) = switchFrame s := by
  unfold openSwitch
  split <;> simp

@[simp] theorem switchFrame_retarget (g : Nat) (p : PendingSwitch) (t : Target) (s : State) :
    switchFrame (retarget g p t s) = switchFrame s := by
  simp [retarget]

@[simp] theorem switchFrame_cancel (g : Nat) (p : PendingSwitch) (s : State) :
    switchFrame (cancel g p s) = switchFrame s := by
  simp [cancel]

@[simp] theorem switchFrame_serveSwitch (q : SwitchRequest) (delay : Nat) (s : State) :
    switchFrame (serveSwitch q delay s) = switchFrame s := by
  unfold serveSwitch
  dsimp only
  (repeat' split) <;> simp

@[simp] theorem switchFrame_handOver (qs : List SwitchRequest) (s : State) :
    switchFrame (handOver qs s) = switchFrame s := by
  simp [handOver]

@[simp] theorem switchFrame_emptyGroup (g : Nat) (s : State) :
    switchFrame (emptyGroup g s) = switchFrame s := by
  unfold emptyGroup
  dsimp only
  split <;> simp

@[simp] theorem switchFrame_leaveGroup (g n : Nat) (inStep : Bool) (s : State) :
    switchFrame (leaveGroup g n inStep s) = switchFrame s := by
  unfold leaveGroup
  dsimp only
  (repeat' split) <;> simp

end Sys2Proof.Machine
end

