-- ==== Sys2Proof/Tests/Slice0.lean ====
section
/-! SUPPORT. The model's own tests. A `test_` theorem checks a value that the manual gives (a worked example, a table) or that
follows from its rules by hand; a `wellFormed_` theorem shows what a check refuses; a `witness_` theorem shows a state and
operands that meet the hypotheses of the obligation it is named after, clause by clause. -/

open Sys2Proof Sys2Proof.Machine

namespace Sys2Proof.Tests

-- one theorem after another: the memory of many at once is what a checker may not have
set_option Elab.async false

/-- The state that a command leaves, where it leaves one. -/
def next (c : Instr) (s : State) : State :=
  match exec c s with
  | .next t => t
  | .fault _ => s
  | .refused _ => s

/-- The reply placed by a request that is served: its status and fields. -/
def reply (c : Instr) (s : State) : Option (Status × List Field) :=
  (serveRequest c s).link.replySlot.map (fun r => (r.status, r.fields))

/-- The notices that a state holds, the one being sent first. -/
def raised (s : State) : List (NoticeKind × List Field) :=
  ((match s.link.inFlight with | some (.notice n) => [n] | _ => []) ++ s.link.notices).map (fun n => (n.kind, n.fields))

/-- A part that is RUNNING with empty tables. -/
def ready : State := { State.reset with startUp := { phase := .running, rebuilt := none } }

/-- `ready` at a count, day and time of day, its clock valid. -/
def readyAt (count : Count) (day timeOfDay : Nat) : State :=
  { ready with time := { ready.time with count := count, day := day, timeOfDay := timeOfDay, valid := true } }

/-- `ready` with a PPS edge seen and the capture counter at a value. -/
def captured (counter : Nat) (d : Discipline) : State :=
  { ready with time := { ready.time with edgeSeen := true, captureCounter := counter, discipline := d } }

/-- A cut of a programming operation that had programmed nothing. -/
def noCut : ProgramCut := { bits := 0, commit := false, failure := false, lock := false }

/-- The end of a frame with every pin low and nothing programmed. -/
def quietEnd : FrameEnd := { seen := Seen.nothing, rate1 := false, rate0 := false, cut := noCut }

/-! ### Well-formed commands -/

theorem wellFormed_refuses_groups :
    [Instr.epochRenewal 0, .epochRenewal 65, .switchTaken 0, .switchTaken 65].all (fun i => !i.wellFormed) = true := by
  decide

theorem wellFormed_refuses_lines :
    [Instr.emptyRoundEnd 8, .pollSend 8, .pollSent 8, .reportStartBit 8, .replyTimeout 8, .reportGapTimeout 8 [0],
     .reportGapTimeout 7 [], .reportGapTimeout 7 (List.replicate 13 0), .reportReceived 8 (List.replicate 13 0),
     .reportReceived 7 (List.replicate 12 0)].all (fun i => !i.wellFormed) = true := by decide

theorem wellFormed_refuses_sites :
    [Instr.stuReport 0 false, .stuReport 385 true, .cmReport 0, .cmReport 385, .zeroJudgement 0, .zeroJudgement 385,
     .fuReport 0, .fuReport 385].all (fun i => !i.wellFormed) = true := by decide

theorem wellFormed_refuses_numbers :
    [Instr.setTime 0 65536 0, .setTime 0 0 4294967296, .writeSite 0 65536 0 1 0, .writeSite 0 1 256 1 0,
     .writeSite 0 1 0 256 0, .writeSite 0 1 0 1 256, .readSite 0 65536, .removeSite 0 65536, .postPlan 0 256 0,
     .postPlan 0 0 256, .withdrawPlan 0 256, .readPlan 0 256 0 0, .readPlan 0 0 256 0, .readPlan 0 0 0 256,
     .listPlans 0 0 256 1, .listPlans 0 0 0 256, .readDayProgram 0 256, .writeWeek 0 256 (List.replicate 7 0),
     .writeWeek 0 1 (List.replicate 6 0), .writeWeek 0 1 (List.replicate 7 256), .readWeek 0 256, .readEvent 0 256 0,
     .readEvent 0 1 256, .deleteEvent 0 256, .groupStatus 0 256, .siteStatus 0 65536, .releaseHold 0 65536,
     .setMonitor 0 256 0 0, .setMonitor 0 0 256 0, .setMonitor 0 0 0 256, .watch 0 65536, .lineStatus 0 256 0,
     .lineStatus 0 0 256, .clearFlags 0 65536 1, .setFlagMask 0 256 0, .signalSite 0 65536 1,
     .readFloor 0 { site := 65536, seen := Seen.nothing }].all (fun i => !i.wellFormed) = true := by decide

/-- A plan header, a site entry, a program entry, an event and settings that fit their fields. -/
def header1 : RawHeader :=
  { plan := 41, group := 12, cycle := 1200, mode := 0, shorten := 15, lengthen := 20, window := 20, cohortKey := 7, count := 14 }
def entry1 : RawEntry :=
  { site := 208, offset := 410, intervals := 4, modeOverride := 255, splits := [520, 300, 95, 285, 0, 0, 0, 0] }
def event1 : RawEvent :=
  { id := 31, firstDay := 9499, lastDay := 9499, weekdays := 0x20, action := 0, plan := 41, start := 1020, stop := 1410,
    program := 0, priority := 9, notify := 1, groups := [12] }
def settings1 : RawSettings := { enabled := 1, bitRate := 2, timeout := 20, mode := 1, polarity := 0, manual := 0 }

theorem wellFormed_refuses_records :
    [Instr.writePlanHeader 0 256 header1, .writePlanHeader 0 0 { header1 with plan := 256 },
     .writePlanHeader 0 0 { header1 with cycle := 65536 }, .writePlanSites 0 256 0 [entry1],
     .writePlanSites 0 0 0 [{ entry1 with site := 65536 }], .writePlanSites 0 0 0 [{ entry1 with intervals := 256 }],
     .writePlanSites 0 0 0 [{ entry1 with splits := [1] }],
     .writePlanSites 0 0 0 [{ entry1 with splits := List.replicate 8 65536 }],
     .writePlanSites 0 0 0 (List.replicate 47 entry1), .writeDayProgram 0 256 [],
     .writeDayProgram 0 1 [{ start := 65536, plan := 1, notify := 0 }],
     .writeDayProgram 0 1 [{ start := 0, plan := 256, notify := 0 }], .writeEvent 0 { event1 with id := 256 },
     .writeEvent 0 { event1 with firstDay := 65536 }, .writeEvent 0 { event1 with groups := List.replicate 256 1 },
     .writeEvent 0 { event1 with groups := [256] }, .forcePlan 0 256 1 [1], .forcePlan 0 1 65536 [1],
     .forcePlan 0 1 1 [256], .forcePlan 0 1 1 (List.replicate 256 1), .releaseForce 0 [256],
     .releaseForce 0 (List.replicate 256 1), .lineControl 0 256 0 settings1, .lineControl 0 0 256 settings1,
     .lineControl 0 0 0 { settings1 with timeout := 256 }, .commissionFloor 0 65536 4 600 1500 [],
     .commissionFloor 0 1 256 600 1500 [], .commissionFloor 0 1 4 65536 1500 [], .commissionFloor 0 1 4 600 65536 [],
     .commissionFloor 0 1 4 600 1500 [65536], .commissionFloor 0 1 4 600 1500 (List.replicate 256 1)].all
      (fun i => !i.wellFormed) = true := by decide +kernel

theorem wellFormed_refuses_long_programs :
    (Instr.writeDayProgram 0 1 (List.replicate 256 { start := 0, plan := 0, notify := 0 })).wellFormed = false := by
  decide +kernel

theorem wellFormed_refuses_known_kinds :
    [Instr.unknownKind 0 Kind.identify [], .unknownKind 0 0x04 (List.replicate 1025 0)].all (fun i => !i.wellFormed) = true := by
  decide +kernel

theorem wellFormed_accepts :
    [Instr.writePlanHeader 0 30 header1, .writePlanSites 0 30 9 [entry1], .writeEvent 0 event1,
     .lineControl 0 3 0 settings1, .unknownKind 0 0x04 [], .reportReceived 7 (List.replicate 13 0),
     .commissionFloor 0 208 4 600 1500 [250, 120, 100, 80]].all Instr.wellFormed = true := by decide

/-! ### Frames (chapter 12) -/

/-- The 16-bit check of R203 is the common one whose value over the digits 1 to 9 is 0x29B1. -/
theorem test_crc16 : crc16 [0x31, 0x32, 0x33, 0x34, 0x35, 0x36, 0x37, 0x38, 0x39] = 0x29B1 := by decide +kernel

/-- The section check of R195 is the common one whose value over the digits 1 to 9 is 0xCBF43926. -/
theorem test_crc32 : crc32 [0x31, 0x32, 0x33, 0x34, 0x35, 0x36, 0x37, 0x38, 0x39] = 0xCBF43926 := by decide +kernel

/-- The body of WRITE-PLAN-HEADER, byte by byte from Tables 12-4 and 12-5. -/
theorem test_decode_write_plan_header :
    decodeRequest Seen.nothing 0x21 5 [30, 41, 12, 0xB0, 0x04, 0, 15, 20, 20, 7, 14] = .request (.writePlanHeader 5 30 header1) := by
  decide

/-- WRITE-PLAN-SITES with one entry of 22 bytes, and the lengths of the manual's example (12.3). -/
theorem test_decode_write_plan_sites :
    decodeRequest Seen.nothing 0x22 1 [30, 9, 1, 0xD0, 0, 0x9A, 1, 4, 255, 0x08, 2, 0x2C, 1, 0x5F, 0, 0x1D, 1, 0, 0, 0, 0, 0, 0, 0, 0]
      = .request (.writePlanSites 1 30 9 [entry1]) ∧
    decodeRequest Seen.nothing 0x22 1 ([0, 0, 8] ++ List.replicate 175 0) = .badLength ∧
    (decodeRequest Seen.nothing 0x22 1 ([0, 0, 9] ++ List.replicate 198 0) ≠ .badLength) := by decide +kernel

theorem test_decode_requests :
    decodeRequest Seen.nothing 0x10 9 [0x1B, 0x25, 0x3E, 0x8C, 0, 0] = .request (.setTime 9 9499 35902) ∧
    decodeRequest Seen.nothing 0x37 2 [41, 30, 0, 2, 12, 13] = .request (.forcePlan 2 41 30 [12, 13]) ∧
    decodeRequest Seen.nothing 0x59 3 [0xD0, 0, 4, 0x58, 2, 0xDC, 5, 4, 0xFA, 0, 0x78, 0, 0x64, 0, 0x50, 0]
      = .request (.commissionFloor 3 208 4 600 1500 [250, 120, 100, 80]) ∧
    decodeRequest { key := true, programmed := 0 } 0x58 4 [] = .request (.openCommissioning 4 true) ∧
    decodeRequest Seen.nothing 0x03 4 [0] = .badLength ∧ decodeRequest Seen.nothing 0x04 4 [] = .unknownKind := by decide

/-- A poll without an order, from Table 12-7: 28 bytes, the check over the 25 bytes after the sync. -/
theorem test_poll_without_order :
    (pollBytes 41 none 0x80).take 26 = [0x7E, 41, 0x50] ++ List.replicate 22 0 ++ [0x80] ∧
    (pollBytes 41 none 0x80).length = 28 := by decide

/-! ### Start, resets and the Time Base -/

theorem witness_StepRunsTheFrontCommand : State.reset.pending = [] := rfl

theorem test_step_takes_the_front :
    (match step { ready with pending := [.getTime 3, .takeSlot 4] } with
      | .next t => decide (t.pending = [.takeSlot 4]) && t.link.inFlight.isSome
      | _ => false) = true := by decide

/-- A part that has served RESTART and is sending its OK reply. -/
def restarting : State :=
  { ready with link := { ready.link with stopped := true,
                                         inFlight := some (.reply { tag := 1, kind := Kind.restart, status := .ok, fields := [] }) } }

theorem witness_ResetsKeepTheRetainedDomain :
    State.reset.floors.programmer = .idle ∧
    (restarting.floors.programmer = .idle ∧ restarting.startUp.phase ≠ .held ∧
      restarting.link.inFlight = some (.reply { tag := 1, kind := Kind.restart, status := .ok, fields := [] })) ∧
    (next (.resetPinAssert noCut) ready).startUp.phase = .held ∧ ready.startUp.phase ≠ .held := by decide

/-- The straps are read at every reset: RATE1 high and RATE0 low give rate 2 after RESTART too (R176). -/
theorem test_straps_at_restart :
    (next (.frameTransmitEnd { quietEnd with rate1 := true }) restarting).link.rate = 2 ∧
    (next (.frameTransmitEnd { quietEnd with rate1 := true }) restarting).retained.cause = .restartRequest := by decide +kernel

theorem witness_PpsEdgeAndAbsence :
    (absenceWithin ready.time 5 = false ∧ ready.time.edgeSeen = false) ∧
    (absenceWithin (captured 9998000 .never).time 0 = false ∧ (captured 9998000 .never).time.edgeSeen = true) ∧
    absenceWithin (captured 10002000 .never).time 0 = false ∧ absenceWithin (captured 9997999 .never).time 0 = false ∧
    absenceWithin (captured 10002001 .never).time 0 = false ∧
    ((captured 29999999 .locked).time.edgeSeen = true ∧ (captured 29999999 .locked).time.captureCounter < 30000000 ∧
      (captured 29999999 .locked).time.discipline = .locked ∧ (captured 0 .never).time.discipline ≠ .locked) ∧
    30000000 ≤ (captured 30000000 .locked).time.captureCounter := by decide

/-- Edges 2, 3 and 7 of the worked example of chapter 1. -/
theorem test_pps_reload :
    (next (.ppsEdge 10000437) (captured 0 .never)).time.acceptedN = 10000437 ∧
    (next (.ppsEdge 10000437) (captured 0 .never)).time.discipline = .locked ∧
    (next (.ppsEdge 10003100) (captured 0 .locked)).time.verdict = .rejected ∧
    (next (.ppsEdge 10003100) (captured 0 .locked)).time.acceptedN = 10000000 ∧
    (next (.ppsEdge 10000438) (captured 0 .holdover)).time.discipline = .locked := by decide +kernel

/-- The gap of the worked example: HOLDOVER at 30,000,000 counts, with PPS-LOST. -/
theorem test_pps_absence :
    (next .ppsAbsence (captured 5 .locked)).time.discipline = .holdover ∧
    (next .ppsAbsence (captured 5 .locked)).link.inFlight
      = some (.notice { kind := .ppsLost, fields := [.count 0, .large 10000000] }) := by decide +kernel

/-- A clock near the end of a day, of a tick second and of a slew hundred. -/
def ending (timeOfDay slewPhase : Nat) (remainder : Int) : State :=
  { readyAt 4294967295 65535 timeOfDay with
    time := { (readyAt 4294967295 65535 timeOfDay).time with
      slewPhase := slewPhase, slewRemainder := remainder, tickPhase := 9, acceptedN := 10000437 } }

theorem nothingDue_ending (a b : Nat) (z : Int) : NothingDue (ending a b z) :=
  ⟨rfl, fun _ _ _ => ⟨rfl, fun _ h => nomatch h⟩⟩

/-- That clock while the commissioning window is OPEN at a count, CLOSED at 0. -/
def windowed (n : Nat) : State :=
  { ending 863999 98 2 with floors := { FloorStore.delivered with windowOpen := decide (n ≠ 0), windowCount := n } }

theorem witness_TickAdvancesTheClocksAndSlews :
    (NothingDue (ending 863999 98 2) ∧ NoAbsenceInTick (ending 863999 98 2) ∧ CivilAdvance (ending 863999 98 2).time 1 2) ∧
    (NothingDue (ending 863998 99 2) ∧ NoAbsenceInTick (ending 863998 99 2) ∧ CivilAdvance (ending 863998 99 2).time 2 1) ∧
    CivilAdvance (ending 863998 99 0).time 1 0 ∧ CivilAdvance (ending 863998 99 (-1)).time 0 0 ∧
    (∃ v : TimeBase, v.acceptedN = 10000437 ∧ v.reloadR = v.acceptedN / 10 ∧ v.reloadRem = v.acceptedN % 10) := by
  refine ⟨⟨nothingDue_ending _ _ _, ?_, ?_⟩, ⟨nothingDue_ending _ _ _, ?_, ?_⟩, ?_, ?_,
    { State.reset.time with acceptedN := 10000437, reloadR := 1000043, reloadRem := 7 }, ?_⟩
  all_goals first | (unfold NoAbsenceInTick; decide) | (unfold CivilAdvance; decide) | decide

/-- Each state of the window at a tick: OPEN with counts 2 and 1, and CLOSED. -/
theorem witness_TickAdvancesTheClocksAndSlews_window (n : Nat) (h : n ∈ [0, 1, 2]) :
    NothingDue (windowed n) ∧ NoAbsenceInTick (windowed n) ∧ CivilAdvance (windowed n).time 1 2 ∧
    (windowed n).floors.windowOpen = decide (n ≠ 0) ∧ (windowed n).floors.windowCount = n := by
  refine ⟨⟨rfl, fun _ _ _ => ⟨rfl, fun _ h => nomatch h⟩⟩, ?_, ?_, rfl, rfl⟩
  · unfold NoAbsenceInTick; revert n; decide
  · unfold CivilAdvance; revert n; decide

/-- R139, R140: the window opened with 3,000 closes at the tick that brings its count to 0. -/
theorem test_tick_counts_the_window :
    (next .tick (windowed 3000)).floors.windowCount = 2999 ∧ (next .tick (windowed 2)).floors.windowOpen = true ∧
    (next .tick (windowed 1)).floors.windowOpen = false ∧ (next .tick (windowed 1)).floors.windowCount = 0 ∧
    (next .tick (windowed 0)).floors.windowOpen = false := by decide +kernel

/-- R = 1,000,043 and r = 7 from the next tick second on; the day number is taken modulo 65536 (R8). -/
theorem test_tick_reloads_and_wraps :
    (next .tick (ending 863999 98 2)).time.reloadR = 1000043 ∧ (next .tick (ending 863999 98 2)).time.reloadRem = 7 ∧
    (next .tick (ending 863999 98 2)).time.count = 0 ∧ (next .tick (ending 863999 98 2)).time.day = 0 ∧
    (next .tick (ending 863999 98 2)).time.timeOfDay = 0 ∧
    (next .tick (ending 863999 98 2)).resolver.owed = [.signal 0 0 0] := by decide +kernel

/-- Tick 100 of the slew example of chapter 1: from 35,999 to 36,001, and minute 60 is signalled. -/
theorem test_slew_step_signals_the_minute :
    (next .slewStep (ending 35999 99 2)).time.timeOfDay = 36001 ∧ (next .slewStep (ending 35999 99 2)).time.slewRemainder = 1 ∧
    (next .slewStep (ending 35999 99 2)).resolver.owed = [.signal 65535 60 0] := by decide +kernel

theorem witness_OnlyTicksMoveTheCount :
    (∃ t, exec .planCheckStart State.reset = .next t) ∧ (∃ t, exec .tick State.reset = .next t) ∧
    (∃ t, exec .slewStep State.reset = .next t) ∧ (∃ t, exec (.powerOn ⟨false, true, false, true⟩ noCut) State.reset = .next t) :=
  ⟨⟨_, rfl⟩, ⟨_, rfl⟩, ⟨_, rfl⟩, ⟨_, rfl⟩⟩

theorem ready_is_ready : Ready ready := ⟨rfl, rfl⟩

theorem witness_SetTimeSlewsOrSteps :
    Ready (readyAt 7 9499 35900) ∧
    ((9499 : Int) * 864000 + 35920 - (9499 * 864000 + 35900) = 20 + 0 * 56623104000 ∧
      (readyAt 7 9499 35900).time.valid = true) ∧
    ((9499 : Int) * 864000 + 35921 - (9499 * 864000 + 35900) = 21 + 0 * 56623104000) ∧
    ((0 : Int) * 864000 + 0 - (65535 * 864000 + 863999) = 1 + -1 * 56623104000) ∧
    (ready.time.valid = false ∧ Ready ready) := by
  refine ⟨⟨rfl, rfl⟩, ?_, ?_, ?_, ?_, ready_is_ready⟩ <;> decide

/-- The acceptance of the slew example: SLEW with the old value (0 is SLEW, R11). -/
theorem test_set_time_slews :
    reply (.setTime 1 9499 35902) (readyAt 7 9499 35900) = some (.ok, [.code 0, .day 9499, .timeOfDay 35900, .mark true]) ∧
    (next (.setTime 1 9499 35902) (readyAt 7 9499 35900)).time.slewRemainder = 2 := by decide +kernel

/-- Day 9,499 is a Saturday (R9). -/
theorem test_get_time_weekday :
    (reply (.getTime 1) (readyAt 7 9499 35900)).map (fun r => r.2.getD 4 (.byte 9)) = some (.byte 5) := by decide

/-! ### The evening of day 9,499: the worked examples of chapters 2 to 4 -/

/-- Event entries 31 and 32 of Table 3-4. -/
def entry31 : EventEntry :=
  { firstDay := 9499, lastDay := 9499, weekdays := 0x20, groups := [12], action := .plan 41 1020 1410, priority := 9,
    notify := true, sequence := 140 }
def entry32 : EventEntry := { entry31 with groups := [13], action := .plan 42 1020 1410, sequence := 141 }

/-- Entry 7 of Table 3-4. -/
def entry7 : EventEntry :=
  { firstDay := 9400, lastDay := 9800, weekdays := 0x60, groups := [12], action := .program 21, priority := 4,
    notify := false, sequence := 118 }

/-- Program 21 of Table 3-3. -/
def program21 : List ProgramEntry := [⟨360, 22, false⟩, ⟨960, 23, false⟩, ⟨1380, 22, true⟩]

/-- A POSTED slot with a plan for a group, with one site entry. -/
def posted (plan group cycle refs site : Nat) (splits : List Nat) : Slot :=
  { state := .posted, supersede := false, refs := refs, checkCode := some 0x1234
    header := some { plan := plan, group := group, cycle := cycle, mode := .best, shorten := 15, lengthen := 20,
                     window := 20, cohortKey := 7, count := 1 }
    entries := [(0, some { site := site, offset := 0, splits := splits, modeOverride := none })] }

/-- Site 208's floor in the examples of chapters 2 and 7. -/
def floor208 : FloorValues := { intervals := 4, minimums := [250, 120, 100, 80], minCycle := 600, maxCycle := 1500 }

/-- Minute 1020 of the evening: groups 12 and 13 run plans 23 and 25, and entries 31 and 32 begin (Tables 3-4, 4-4). Slot 30 is
FILLING, slot 31 CHECKING, slot 32 RETIRING. -/
def evening : State :=
  { readyAt 500000 9499 612000 with
    roster := [(117, some ⟨3, 41, 12⟩), (208, some ⟨3, 42, 12⟩), (300, some ⟨2, 41, 13⟩)]
    floors := { FloorStore.delivered with effective := [(117, some floor208), (208, some floor208)] }
    library :=
      { slots := [(5, posted 23 12 900 1 117 [400, 200, 150, 150]), (6, posted 25 13 1000 1 300 [500, 500]),
          (17, posted 41 12 1200 0 208 [520, 300, 100, 280]), (21, posted 42 13 1200 0 300 [600, 600]),
          (30, { posted 41 12 1200 0 208 [520, 300, 95, 285] with state := .filling, checkCode := none }),
          (31, { posted 43 12 1200 0 208 [520, 300, 100, 280] with state := .checking, checkCode := none }),
          (32, { posted 44 12 1200 1 208 [520, 300, 100, 280] with state := .retiring })]
        freeList := [44, 45, 12], checkQueue := [31], checking := false }
    resolver := { Resolver.reset with
      programs := [(21, program21)], weeks := [(12, [5, 5, 5, 5, 5, 5, 5])]
      events := [(7, some entry7), (31, some entry31), (32, some entry32)], sequence := 150
      forces := [(13, some { plan := 0, ends := some (9499, 1021) })]
      owed := [.signal 9499 1020 500000] }
    groups := [(12, { GroupRecord.empty with members := 2, lastSwitch := some 499400, reference := some ⟨5, 23, 499400, 900⟩ }),
      (13, { GroupRecord.empty with members := 1, lastSwitch := some 498950, reference := some ⟨6, 25, 498950, 1000⟩ })] }

/-- `evening` with the force on group 13 gone. -/
def minute1020 : State := { evening with resolver := { evening.resolver with forces := [] } }

theorem evening_is_ready : Ready evening := ⟨rfl, rfl⟩

theorem evening_is_canonical : TablesCanonical evening := by unfold TablesCanonical; decide +kernel

theorem witness_ReadsReportTimeProgramsAndEvents :
    Ready evening ∧ evening.event 31 = some entry31 ∧ evening.event 1 = none ∧ evening.event 128 = none ∧
    (evening.event 7 = some entry7 ∧ ∀ j, 1 ≤ j → j < 7 → evening.event j = none) ∧
    (∀ j, 33 ≤ j → j ≤ 128 → evening.event j = none) := by
  refine ⟨evening_is_ready, by decide, by decide, by decide, ⟨by decide, ?_⟩, ?_⟩
  · intro j h1 h2
    have : ∀ j < 7, 1 ≤ j → evening.event j = none := by decide
    exact this j h2 h1
  · intro j h1 h2
    have : ∀ j < 129, 33 ≤ j → evening.event j = none := by decide +kernel
    exact this j (by omega) h1

/-- Program 21 of Table 3-3, and the lowest occupied id at or above 8. -/
theorem test_read_day_program :
    reply (.readDayProgram 1 21) evening = some (.ok, [.byte 21, .byte 3, .minute 360, .byte 22, .mark false,
      .minute 960, .byte 23, .mark false, .minute 1380, .byte 22, .mark true]) ∧
    (reply (.readEvent 1 8 1) evening).map (fun r => r.2.getD 0 (.byte 0)) = some (.byte 31) := by decide

/-- A part in start-up whose roster section loads; the table of floors holds one COMMITTED entry that passes the check, one that
does not, and one that is DIRTY. -/
def loading : State :=
  { State.reset with
    floors := { FloorStore.delivered with lockMark := true, entries :=
      [(1, { image := floor208.image, commit := true, failure := false }),
       (2, { image := 0x05, commit := true, failure := false }), (3, { image := floor208.image, commit := false, failure := false })] }
    store := { NvStore.delivered with
      roster := { content := rosterContent evening, check := leBytes 4 (crc32 (rosterContent evening)).toNat } } }

theorem witness_StartUpRebuildsTheTables :
    (loading.startUp.phase = .loading ∧ loading.startUp.rebuilt = none ∧
      Table.wf FloorEntry.blank loading.floors.entries = true ∧ loading.roster = []) ∧
    (∃ es, loadSection loading.store.roster parseRoster = (.loaded, some es)) ∧
    (loadSection State.reset.store.roster parseRoster).1 ≠ .loaded := by
  exact ⟨by decide +kernel, ⟨[(117, ⟨3, 41, 12⟩), (208, ⟨3, 42, 12⟩), (300, ⟨2, 41, 13⟩)], by decide +kernel⟩, by decide⟩

theorem test_start_up_rebuilds :
    (next .startUpTablesRebuilt loading).effectiveFloor 1 = some floor208 ∧
    (next .startUpTablesRebuilt loading).effectiveFloor 2 = none ∧
    (next .startUpTablesRebuilt loading).effectiveFloor 3 = none ∧
    (next .startUpTablesRebuilt loading).rosterEntry 208 = some ⟨3, 42, 12⟩ ∧
    (next .startUpTablesRebuilt loading).library.freeList = List.range 96 := by decide +kernel

/-- A section that holds a content with its check. -/
def stored (content : List Byte) : Machine.Section := { content := content, check := leBytes 4 (crc32 content).toNat }

/-- A part in start-up that finds the evening's four sections and the floors of sites 117 and 208. -/
def reloading : State :=
  { State.reset with
    floors := { FloorStore.delivered with entries :=
      [(117, { image := floor208.image, commit := true, failure := false }),
       (208, { image := floor208.image, commit := true, failure := false })] }
    store := { roster := stored (rosterContent evening), settings := stored (settingsContent evening)
               plans := stored (plansContent evening), timetables := stored (timetablesContent evening), operation := none } }

/-- What each section of the evening holds, as it is parsed back. -/
def roster1 : List (Nat × RosterEntry) := (parseRoster (rosterContent evening)).getD []
def plans1 : List StoredPlan := (parsePlans (plansContent evening)).getD []
def timetables1 : StoredTimetables := (parseTimetables (timetablesContent evening)).getD ⟨[], [], []⟩
def savedSettings : StoredSettings :=
  { lines := (List.range 8).map (fun l => (evening.line l).settings), tolerance := evening.monitor.tolerance,
    limitCode := evening.monitor.limitCode, mask := evening.flags.mask }

theorem reloading_roster : loadSection reloading.store.roster parseRoster = (.loaded, some roster1) := by
  have h : parseRoster (rosterContent evening) = some roster1 := by decide +kernel
  exact (loadSection_written _ _).trans (by rw [h])

theorem reloading_settings : loadSection reloading.store.settings parseSettings = (.loaded, some savedSettings) := by
  have h : parseSettings (settingsContent evening) = some savedSettings := by decide +kernel
  exact (loadSection_written _ _).trans (by rw [h])

theorem reloading_plans : loadSection reloading.store.plans parsePlans = (.loaded, some plans1) := by
  have h : parsePlans (plansContent evening) = some plans1 := by decide +kernel
  exact (loadSection_written _ _).trans (by rw [h])

theorem reloading_timetables : loadSection reloading.store.timetables parseTimetables = (.loaded, some timetables1) := by
  have h : parseTimetables (timetablesContent evening) = some timetables1 := by decide +kernel
  exact (loadSection_written _ _).trans (by rw [h])

/-- R39, R45 and R199: the plans without an effective floor return to FILLING, the entries are numbered from 1, and STARTED will
count 4 slots loaded POSTED, 2 of them returned. -/
theorem test_start_up_loads :
    let t := rebuildTables reloading
    ((t.slot 17).state = .posted ∧ (t.slot 6).state = .filling) ∧ planCheck t 17 false = .passed none ∧
    planCheck t 6 false ≠ .passed none ∧ (t.event 31).map (·.sequence) = some 2 ∧ t.resolver.sequence = 4 ∧
    t.startUp.rebuilt.map (fun r => (r.posted, r.returned)) = some (4, 2) := by
  simp only [rebuildTables, reloading_roster, reloading_settings, reloading_plans, reloading_timetables]
  decide +kernel

/-- R199 step 3, R31: site 300 has no effective floor (check 4, index 0), so slots 6 and 21 come back; the items are 3 roster entries,
8 lines, 4 plans, and 3 program entries, 64 week tables and 3 calendar entries. -/
theorem test_start_up_notices :
    let t := rebuildTables reloading
    raised t = [(.planChecked, [.byte 6, .byte 25, .code 4, .byte 0, .byte 0, .checkCode 0, .byte 255, .code 0]),
      (.planChecked, [.byte 21, .byte 42, .code 4, .byte 0, .byte 0, .checkCode 0, .byte 255, .code 0])] ∧
    t.startUp.rebuilt.map (fun r => r.sections.map (·.2)) = some [3, 8, 4, 70] := by
  simp only [rebuildTables, reloading_roster, reloading_settings, reloading_plans, reloading_timetables]
  decide +kernel

theorem witness_StartUpLoadsTheStoredSections :
    (reloading.startUp.phase = .loading ∧ reloading.startUp.rebuilt = none ∧ reloading.library = PlanLibrary.reset) ∧
    loadSection reloading.store.settings parseSettings = (.loaded, some savedSettings) ∧
    (loadSection reloading.store.plans parsePlans = (.loaded, some plans1) ∧ plans1.map (·.slot) = [5, 6, 17, 21]) ∧
    (loadSection reloading.store.timetables parseTimetables = (.loaded, some timetables1) ∧
      timetables1.events.map (fun e => (e.event.id, e.sequence)) = [(7, 118), (31, 140), (32, 141)]) ∧
    (loadSection State.reset.store.settings parseSettings).1 ≠ .loaded ∧
    (loadSection State.reset.store.plans parsePlans).1 ≠ .loaded ∧
    (loadSection State.reset.store.timetables parseTimetables).1 ≠ .loaded :=
  ⟨by decide, reloading_settings, ⟨reloading_plans, by decide +kernel⟩, ⟨reloading_timetables, by decide +kernel⟩,
    by decide, by decide, by decide⟩

/-- The evening's part at the end of start-up: group 12 resumes on slot 5, group 13's check code differs, group 14 is EMPTY. -/
def resuming : State :=
  { evening with
    startUp := { phase := .loading, rebuilt := some LoadReport.none }
    groups := []
    retained := { cause := .resetPin, holds := [(117, true), (9, true)]
                  resume := [(12, { plan := 23, checkCode := some 0x1234, cycle := 900, epoch := 499400 }),
                    (13, { plan := 25, checkCode := some 0x1235, cycle := 1000, epoch := 498950 })] } }

theorem witness_StartUpResumesGroups :
    (Table.wf Slot.empty resuming.library.slots = true ∧ resuming.startUp.phase = .loading ∧
      resuming.startUp.rebuilt.isSome = true) ∧
    resuming.membersOf 14 = [] ∧
    (resuming.membersOf 12 ≠ [] ∧ (resuming.resumeOf 12).plan ≠ 0 ∧ postedSlot resuming (resuming.resumeOf 12).plan = some 5 ∧
      (resuming.slot 5).checkCode = (resuming.resumeOf 12).checkCode) ∧
    (resuming.membersOf 13 ≠ [] ∧ postedSlot resuming (resuming.resumeOf 13).plan = some 6 ∧
      (resuming.slot 6).checkCode ≠ (resuming.resumeOf 13).checkCode) ∧
    (∃ report, resuming.startUp.rebuilt = some report) ∧
    ((resuming.line 3).settings.enabled = true ∧ resuming.sitesOn 3 ≠ [] ∧ (resuming.line 3).roundCounter = 0) ∧
    resuming.sitesOn 7 = [] ∧ (State.reset.startUp.phase = .loading ∧ State.reset.startUp.rebuilt = none) ∧
    resuming.time.valid = true ∧ State.reset.time.valid = false ∧ ready.startUp.phase ≠ .loading := by
  refine ⟨by decide +kernel, by decide +kernel, by decide +kernel, by decide +kernel, ⟨_, rfl⟩, ?_⟩
  decide +kernel

theorem test_start_up_resumes :
    ((next .startupEnd resuming).group 12).state = .running ∧ ((next .startupEnd resuming).group 13).state = .free ∧
    (next .startupEnd resuming).resumeOf 13 = ResumeRecord.free ∧ (next .startupEnd resuming).held 117 = true ∧
    (next .startupEnd resuming).held 9 = false ∧
    ((next .startupEnd resuming).slot 5).refs = 2 ∧
    ((next .startupEnd resuming).line 3).round = some { remaining := [117, 208], formedEmpty := false } := by decide +kernel

/-! ### The Plan Library -/

/-- A state with STORE-TABLES in progress. -/
def storing (finished : List (Bool × Nat)) : State :=
  { evening with store := { evening.store with operation := some { accepted := 7, finished := finished } } }

theorem storing_is_ready (f : List (Bool × Nat)) : Ready (storing f) := ⟨rfl, rfl⟩

theorem witness_SlotsAreTakenPostedAndWithdrawn :
    Ready evening ∧ evening.library.freeList = 44 :: [45, 12] ∧ (Ready ready ∧ ready.library.freeList = []) ∧
    (evening.storing = false ∧ (evening.slot 30).state = .filling ∧ (evening.slot 31).state = .checking ∧
      (evening.slot 95).state = .free ∧ (evening.slot 17).state = .posted ∧ (evening.slot 32).state = .retiring) ∧
    ((evening.slot 17).refs = 0 ∧ (evening.slot 5).state = .posted ∧ (evening.slot 5).refs ≠ 0) ∧
    ((storing []).storing = true ∧ ((storing []).slot 17).state = .posted ∧ Ready (storing [])) := by
  refine ⟨evening_is_ready, by decide, ⟨ready_is_ready, by decide⟩, by decide, by decide, by decide, by decide, rfl, rfl⟩

/-- Steps 1 and 4 of the example of chapter 2: the head of the free list is taken, and a posted slot waits for its check. -/
theorem test_take_slot :
    reply (.takeSlot 1) evening = some (.ok, [.byte 44, .byte 2]) ∧
    ((next (.takeSlot 1) evening).slot 44).state = .filling ∧ (next (.takeSlot 1) evening).library.freeList = [45, 12] := by
  decide +kernel

theorem test_post_plan :
    reply (.postPlan 1 30 1) evening = some (.ok, [.byte 1]) ∧
    (next (.postPlan 1 30 1) evening).library.checkQueue = [31, 30] ∧
    ((next (.postPlan 1 30 1) evening).slot 30).supersede = true := by decide +kernel

theorem witness_HeaderIsJudgedAndClamped :
    (Ready evening ∧ (evening.slot 30).state = .filling ∧ (evening.slot 31).state = .checking ∧ (evening.slot 95).state = .free ∧
      (evening.slot 17).state = .posted ∧ (evening.slot 32).state = .retiring) ∧
    ([decide (header1.plan = 0 ∨ 250 < header1.plan), decide (header1.group = 0 ∨ 64 < header1.group),
      decide (header1.cycle < 300 ∨ 2550 < header1.cycle), decide (2 < header1.mode), false, false, decide (header1.window = 0),
      false, decide (header1.count = 0 ∨ 48 < header1.count)].findIdx? id = none ∧ CorrMode.best.code = header1.mode) ∧
    [decide (250 = 0 ∨ 250 < 250), decide (64 = 0 ∨ 64 < 64), decide (2551 < 300 ∨ 2550 < 2551), decide (2 < 3), false, false,
      decide (0 = 0), false, decide (48 = 0 ∨ 48 < 48)].findIdx? id = some 2 := by
  refine ⟨⟨evening_is_ready, ?_⟩, ?_⟩ <;> decide

/-- R22 clamps sp, lp and W at 30, 50 and 100 and answers ADJUSTED. -/
theorem test_header_clamped :
    reply (.writePlanHeader 1 30 { header1 with shorten := 31, lengthen := 51, window := 101 }) evening
      = some (.adjusted, [.byte 41, .byte 12, .length 1200, .code 0, .byte 30, .byte 50, .byte 100, .byte 7, .byte 14]) ∧
    (reply (.writePlanHeader 1 30 header1) evening).map (·.1) = some .ok ∧
    reply (.writePlanHeader 1 30 { header1 with cycle := 299 }) evening = some (.outOfRange, [.named 2]) := by decide

theorem witness_SiteEntriesReplaceTheirPlaces :
    (Ready evening ∧ (evening.slot 30).state = .filling ∧ (evening.slot 31).state = .checking ∧ (evening.slot 95).state = .free) ∧
    (List.replicate 8 entry1).length = 8 ∧ 47 + 1 ≤ 48 ∧
    (∃ bad : RawEntry → Bool,
      bad = (fun e => decide (e.site = 0 ∨ 384 < e.site ∨ 2549 < e.offset ∨ e.intervals = 0 ∨ 8 < e.intervals)
        || (e.splits.take e.intervals).any (fun x => decide (x = 0 ∨ 2550 < x))
        || decide (e.modeOverride ≠ 255 ∧ 2 < e.modeOverride)) ∧
      [entry1].findIdx? bad = none ∧ bad { entry1 with offset := 2549 } = false ∧
      [entry1, { entry1 with offset := 2550 }].findIdx? bad = some 1) := by
  refine ⟨⟨evening_is_ready, by decide⟩, by decide, by decide, _, rfl, ?_⟩; decide

/-- Step 6 of the example of chapter 2 (site 208 at index 9), and the last place that fits. -/
theorem test_write_plan_sites :
    reply (.writePlanSites 1 30 9 [entry1]) evening = some (.ok, [.byte 9, .byte 1]) ∧
    ((next (.writePlanSites 1 30 9 [entry1]) evening).slot 30).entryAt 9 = some ⟨208, 410, [520, 300, 95, 285], none⟩ ∧
    (reply (.writePlanSites 1 30 47 [entry1]) evening).map (·.1) = some .ok ∧
    reply (.writePlanSites 1 30 48 [entry1]) evening = some (.outOfRange, [.byte 255]) := by decide +kernel

theorem test_withdraw_plan :
    ((next (.withdrawPlan 1 5) evening).slot 5).state = .retiring ∧
    (next (.withdrawPlan 1 17) evening).library.freeList = [44, 45, 12, 17] ∧
    (next (.withdrawPlan 1 31) evening).library.checkQueue = [] := by decide +kernel

/-- `evening` with a slot under check. -/
def checking (n : Nat) (supersede : Bool) : State :=
  { evening with library := { evening.library with
      slots := Table.set Slot.empty evening.library.slots n { evening.slot n with state := .checking, supersede := supersede }
      checkQueue := [n], checking := true } }

/-- `checking 30` with the corrected splits of step 6. -/
def corrected30 : State :=
  { checking 30 true with library := { (checking 30 true).library with
      slots := Table.set Slot.empty (checking 30 true).library.slots 30
        { posted 41 12 1200 0 208 [520, 295, 105, 280] with state := .checking, checkCode := none, supersede := true } } }

/-- `corrected30` with a reference on the slot that it supersedes. -/
def referenced30 : State := corrected30.setSlot 17 { corrected30.slot 17 with refs := 1 }

theorem witness_PlanChecksEndInPassOrFail :
    (evening.library.checkQueue ≠ [] ∧ evening.library.checking = false) ∧ ready.library.checkQueue = [] ∧
    ((checking 30 true).library.checkQueue = [30] ∧ (checking 30 true).library.checking = true) ∧
    planCheck (checking 30 true) 30 ((checking 30 true).slot 30).supersede = .failed 7 0 ∧
    planCheck (checking 31 false) 31 ((checking 31 false).slot 31).supersede = .passed none ∧
    planCheck corrected30 30 (corrected30.slot 30).supersede = .passed (some 17) ∧
    planCheck corrected30 30 false = .failed 10 255 ∧
    (referenced30.library.checkQueue = [30] ∧ planCheck referenced30 30 (referenced30.slot 30).supersede = .passed (some 17) ∧
      (referenced30.slot 17).refs ≠ 0 ∧ (corrected30.slot 17).refs = 0) := by decide +kernel

/-- `corrected30` with an entry beyond its count of 1 at place 1 and at the last place. -/
def overfull30 : State :=
  corrected30.setSlot 30 { corrected30.slot 30 with
    entries := (corrected30.slot 30).entries ++ [(1, some ⟨9, 0, [1200], none⟩), (47, some ⟨10, 0, [1200], none⟩)] }

theorem witness_PlanChecksEndInPassOrFail_places :
    overfull30.library.checkQueue = [30] ∧ overfull30.library.checking = true ∧
    planCheck overfull30 30 (overfull30.slot 30).supersede = .passed (some 17) ∧
    ((overfull30.slot 30).header.map (·.count)) = some 1 ∧ (Table.get none (overfull30.slot 30).entries 1).isSome = true := by
  decide +kernel

/-- R30 step 1: the place below the count is kept, those from the count up are emptied. -/
theorem test_places_beyond_the_count :
    (List.range 48).filter (fun i => (Table.get none ((next .planCheckEnd overfull30).slot 30).entries i).isSome) = [0] ∧
    Table.get none ((next .planCheckEnd overfull30).slot 30).entries 0 = Table.get none (corrected30.slot 30).entries 0 := by
  decide +kernel

/-- Step 5 of the example of chapter 2 (check 7, BELOW-FLOOR), and step 8 with the superseded slot unreferenced. -/
theorem test_plan_check_ends :
    ((next .planCheckEnd (checking 30 true)).slot 30).state = .filling ∧
    ((next .planCheckEnd corrected30).slot 30).state = .posted ∧ (next .planCheckEnd corrected30).slot 17 = Slot.empty ∧
    (next .planCheckEnd corrected30).library.freeList = [44, 45, 12, 17] ∧
    ((next .planCheckEnd corrected30).slot 30).checkCode = some (crc16 (corrected30.slot 30).recordBytes) ∧
    ((next .planCheckEnd referenced30).slot 17).state = .retiring := by decide +kernel

theorem test_plan_check_start : (next .planCheckStart evening).library.checking = true := by decide

/-- `corrected30` with another record in slot 30: a plan number and cycle length, and its site entries. -/
def record30 (plan cycle : Nat) (es : List (Nat × Nat × List Nat)) : State :=
  corrected30.setSlot 30 { corrected30.slot 30 with
    header := (corrected30.slot 30).header.map (fun h => { h with plan := plan, cycle := cycle, count := es.length })
    entries := es.mapIdx (fun i e => (i, if e.1 = 0 then none
      else some { site := e.1, offset := e.2.1, splits := e.2.2, modeOverride := none })) }

/-- Check 7 fails at entry 0 of step 5's record and no check before it does; step 8's record passes. -/
theorem witness_PassedPlanMeetsEveryFloor :
    (planCheck corrected30 30 true = .passed (some 17) ∧ planCheck (checking 31 false) 31 false = .passed none) ∧
    (FailsAt (checking 30 true) 30 true 7 0 ∧ planCheck (checking 30 true) 30 true = .failed 7 0) ∧
    FailsAt (corrected30.setSlot 30 { corrected30.slot 30 with header := none }) 30 true 1 255 ∧
    FailsAt corrected30 30 false 10 255 := by
  refine ⟨by decide +kernel, ⟨.inr ⟨_, rfl, .inr (.inr ⟨_, by decide, rfl, ?_⟩)⟩, by decide +kernel⟩, .inl ⟨rfl, rfl, rfl⟩,
    .inr ⟨_, rfl, .inr (.inl ⟨rfl, rfl, rfl, 17, corrected30.slot 17, by decide +kernel, by decide, by decide +kernel⟩)⟩⟩
  exact .inr (.inr (.inr (.inr (.inr ⟨floor208, by decide, .inr (.inl ⟨rfl, (95, 100), by decide, by decide⟩)⟩))))

/-- Each check of Table 2-4 where it is the first to fail, with its entry index. -/
theorem test_plan_check_numbers :
    planCheck (corrected30.setSlot 30 { corrected30.slot 30 with header := none }) 30 true = .failed 1 255 ∧
    planCheck (record30 41 1200 [(208, 0, [520, 295, 105, 280]), (0, 0, [])]) 30 true = .failed 1 1 ∧
    planCheck (record30 41 1200 [(208, 0, [520, 295, 105, 280]), (300, 0, [600, 600])]) 30 true = .failed 2 1 ∧
    planCheck (record30 41 1200 [(208, 0, [520, 295, 105, 280]), (208, 0, [520, 295, 105, 280])]) 30 true = .failed 3 1 ∧
    planCheck { record30 41 1200 [(208, 0, [520, 295, 105, 280])] with
      floors := { corrected30.floors with effective := [] } } 30 true = .failed 4 0 ∧
    planCheck (record30 41 1200 [(208, 0, [900, 200, 100])]) 30 true = .failed 5 0 ∧
    planCheck (record30 41 1200 [(208, 0, [520, 295, 105, 281])]) 30 true = .failed 6 0 ∧
    planCheck (record30 41 1501 [(208, 0, [821, 295, 105, 280])]) 30 true = .failed 8 0 ∧
    planCheck (record30 41 1200 [(208, 1200, [520, 295, 105, 280])]) 30 true = .failed 9 0 := by decide +kernel

theorem witness_ReadsChangeNothing :
    Ready evening ∧ evening.rosterEntry 117 = some ⟨3, 41, 12⟩ ∧ evening.rosterEntry 1 = none ∧ evening.rosterEntry 384 = none ∧
    (evening.floors.programmer = .idle ∧ evening.pins.commissionEn = false ∧ evening.floors.windowOpen = false ∧
      evening.floors.windowCount = 0) ∧
    ((15 : Byte).toNat ≤ 15 ∧ 95 + 1 ≤ 96 ∧ 48 + 48 ≤ 96 ∧ 48 + 0 ≤ 48 ∧ 40 + 8 ≤ 48) ∧ (16 ≤ (16 : Byte).toNat) := by
  refine ⟨evening_is_ready, ?_⟩; decide

/-- LIST-PLANS of the FILLING slots (selection bit 0): free list, its head, the check queue, one line. -/
theorem test_list_plans :
    (reply (.listPlans 1 1 0 48) evening).map (fun r => r.2.take 6)
      = some [.byte 3, .byte 44, .byte 1, .byte 1, .byte 30, .code 1] := by decide +kernel

/-! ### Timetables and schedule resolution -/

theorem witness_DayProgramsAndWeeksAreReplacedWhole :
    Ready evening ∧ evening.storing = false ∧ (storing []).storing = true ∧
    [(⟨1439, 250, 1⟩ : RawProgramEntry)].findIdx? (fun e => decide (1439 < e.start ∨ 250 < e.plan ∨ 1 < e.notify)) = none ∧
    [(⟨0, 250, 1⟩ : RawProgramEntry), ⟨1440, 0, 0⟩].findIdx? (fun e => decide (1439 < e.start ∨ 250 < e.plan ∨ 1 < e.notify))
      = some 1 ∧
    firstUnordered [0, 1438, 1439] = none ∧ firstUnordered [0, 960, 960] = some 2 ∧
    [5, 5, 5, 5, 5, 5, 64].length = 7 ∧ [5, 5, 5, 5, 5, 5, 64].findIdx? (fun p => decide (64 < p)) = none ∧
    [5, 5, 5, 5, 5, 5, 65].findIdx? (fun p => decide (64 < p)) = some 6 := by
  refine ⟨evening_is_ready, ?_⟩; decide

theorem test_write_day_program :
    (next (.writeDayProgram 1 64 [⟨1439, 250, 1⟩]) evening).program 64 = [⟨1439, 250, true⟩] ∧
    reply (.writeDayProgram 1 21 [⟨960, 23, 0⟩, ⟨360, 22, 0⟩]) evening = some (.duplicate, [.byte 1]) := by decide +kernel

theorem test_write_week :
    (next (.writeWeek 1 64 [0, 1, 2, 3, 4, 5, 6]) evening).week 64 = [0, 1, 2, 3, 4, 5, 6] ∧
    reply (.readWeek 1 12) evening = some (.ok, List.replicate 7 (.byte 5)) := by decide +kernel

/-- `evening` with the sequence counter at its top. -/
def sequenceAt (n : Nat) : State := { evening with resolver := { evening.resolver with sequence := n } }

/-- The judgements of R46 on the fields of an entry, in the order of the rule. -/
def badFields (e : RawEvent) : List Bool :=
  [decide (e.id = 0 ∨ 128 < e.id), decide (e.lastDay < e.firstDay),
    decide (e.weekdays = 0) || e.weekdays.getLsbD 7,
    decide (e.groups.length = 0 ∨ 64 < e.groups.length) || e.groups.any (fun g => decide (g = 0 ∨ 64 < g)),
    decide (1 < e.action), decide (e.action = 0 ∧ 250 < e.plan),
    decide (e.action = 0 ∧ (1439 < e.start ∨ e.stop = 0 ∨ 1440 < e.stop ∨ e.stop ≤ e.start)),
    decide (e.action = 1 ∧ (e.program = 0 ∨ 64 < e.program)), decide (e.priority = 0 ∨ 15 < e.priority),
    decide (1 < e.notify)]

theorem witness_EventsAreWrittenAndDeleted :
    Ready evening ∧ (badFields { event1 with id := 129 }).findIdx? id = some 0 ∧
    (badFields { event1 with stop := 1441 }).findIdx? id = some 6 ∧ (badFields { event1 with notify := 2 }).findIdx? id = some 9 ∧
    (badFields { event1 with action := 1, program := 64, plan := 255, start := 9999 }).findIdx? id = none ∧
    ((badFields event1).findIdx? id = none ∧ firstRepeat [12, 13, 12] = some 2 ∧ firstRepeat event1.groups = none) ∧
    (evening.storing = false ∧ evening.resolver.sequence < 4294967295) ∧ (storing []).storing = true ∧
    4294967295 ≤ (sequenceAt 4294967295).resolver.sequence ∧ evening.event 128 = none ∧ evening.event 7 ≠ none := by
  refine ⟨evening_is_ready, ?_⟩; decide

/-- R46: of an entry of the other action the plan and the window are not judged; the minutes of its own are, by name of place. -/
theorem test_event_ranges :
    (reply (.writeEvent 1 { event1 with id := 9, action := 1, program := 64, plan := 255, start := 9999 }) evening).map (·.1)
      = some .ok ∧
    reply (.writeEvent 1 { event1 with start := 1410 }) evening = some (.outOfRange, [.named 6]) := by decide +kernel

/-- The late entry of minute 1150 in the example of chapter 3: it takes sequence number 150. -/
theorem test_write_event :
    reply (.writeEvent 1 { event1 with id := 40, plan := 44, start := 1200, stop := 1260, groups := [13], notify := 0 }) evening
      = some (.ok, [.byte 40, .large 150, .byte 4, .mark false]) := by decide +kernel

theorem test_delete_event :
    (next (.deleteEvent 1 31) evening).event 31 = none ∧ (next (.deleteEvent 1 31) evening).resolver.sequence = 150 := by
  decide +kernel

theorem witness_ForcesAreSetAndReleased :
    Ready evening ∧
    [decide ([65].length = 0 ∨ 64 < [65].length) || [65].any (fun g => decide (g = 0 ∨ 64 < g)), decide (250 < 0),
      decide (1 = 0)].findIdx? id = some 0 ∧
    (∀ g ∈ [1, 64], 1 ≤ g ∧ g ≤ 64) ∧ [1, 64].Nodup ∧ ¬ [64, 64].Nodup ∧
    (251 ≠ 0 ∧ postedSlot evening 250 = none) ∧ postedSlot evening 41 ≠ none ∧ ready.time.valid = false ∧ Ready ready ∧
    (1 ≠ 65535 ∧ evening.time.valid = true ∧ evening.time.timeOfDay / 600 + min 419 1440 = 1439 ∧
      evening.time.timeOfDay / 600 + min 420 1440 = 1440 ∧ 1440 ≤ evening.time.timeOfDay / 600 + min 65534 1440) ∧
    (∃ g ∈ [0, 1], g = 0 ∨ 64 < g) := by
  refine ⟨evening_is_ready, by decide, by decide, by decide, by decide, by decide, by decide, by decide, ready_is_ready,
    by decide, by decide⟩

/-- The force variant of the example of chapter 3: at minute 1300 a force of 30 minutes ends at minute 1330 of the day. -/
theorem test_force_plan :
    (next (.forcePlan 1 0 30 [12, 13]) (readyAt 0 9499 780000)).forceOf 13 = some { plan := 0, ends := some (9499, 1330) } ∧
    reply (.releaseForce 1 [13, 12]) evening = some (.ok, [.byte 1]) := by decide +kernel

/-- R49: m + duration at 1439 and at 1440, and the clamp to 1440 minutes. -/
theorem test_force_ends :
    (next (.forcePlan 1 0 419 [12]) evening).forceOf 12 = some { plan := 0, ends := some (9499, 1439) } ∧
    (next (.forcePlan 1 0 420 [12]) evening).forceOf 12 = some { plan := 0, ends := some (9500, 0) } ∧
    (next (.forcePlan 1 0 1441 [12]) evening).forceOf 12 = some { plan := 0, ends := some (9500, 1020) } := by decide +kernel

theorem mem_of_get {α : Type} (t : Table (Option α)) (k : Nat) (x : α) (h : Table.get none t k = some x) : (k, some x) ∈ t := by
  induction t with
  | nil => simp [Table.get] at h
  | cons e r ih =>
    rw [Table.get] at h
    split at h
    · subst_vars; rw [← h]; exact List.mem_cons_self ..
    · exact List.mem_cons_of_mem _ (ih h)

/-- R53 on one entry, as a test. -/
def appliesTo (e : EventEntry) (g day minute : Nat) : Bool :=
  decide (g ∈ e.groups ∧ e.firstDay ≤ day ∧ day ≤ e.lastDay) && e.weekdays.getLsbD ((day + 5) % 7) &&
    match e.action with
    | .plan _ a b => decide (a ≤ minute ∧ minute < b)
    | .program _ => true

theorem applies_iff (e : EventEntry) (g day minute : Nat) : Applies e g day minute ↔ appliesTo e g day minute = true := by
  unfold Applies appliesTo
  cases e.action <;> grind

/-- Entry `id` applies and every other that does gives way to it. -/
def winsAt (s : State) (g day minute id : Nat) (e : EventEntry) : Bool :=
  decide (s.event id = some e) && appliesTo e g day minute && s.resolver.events.all (fun p =>
    decide (p.1 = id) || p.2.all (fun x => !appliesTo x g day minute
      || decide (x.priority < e.priority ∨ (x.priority = e.priority ∧ x.sequence < e.sequence))))

theorem wins_of (s : State) (g day minute id : Nat) (e : EventEntry) (h : winsAt s g day minute id e = true) :
    Wins s g day minute id e := by
  simp only [winsAt, Bool.and_eq_true, decide_eq_true_eq] at h
  refine ⟨h.1.1, (applies_iff ..).2 h.1.2, ?_⟩
  intro k x hk hx hax
  have hm := List.all_eq_true.1 h.2 _ (mem_of_get _ _ _ hx)
  rw [applies_iff] at hax
  simpa [hk, hax] using hm

theorem noEntry_of (s : State) (g day minute : Nat)
    (h : s.resolver.events.all (fun p => p.2.all (fun x => !appliesTo x g day minute)) = true) : NoEntry s g day minute := by
  intro k x hx hax
  have hm := List.all_eq_true.1 h _ (mem_of_get _ _ _ hx)
  rw [applies_iff] at hax
  simp [hax] at hm

/-- The evening with entry 31 up to the end of the day, and without week tables. -/
def lateEntry : State :=
  { evening with resolver := { evening.resolver with
      weeks := [], events := [(7, some entry7), (31, some { entry31 with action := .plan 41 1020 1440 }), (32, some entry32)] } }

theorem lateEntry_is_canonical : TablesCanonical lateEntry := by unfold TablesCanonical; decide +kernel

/-- Each way a group of the evening resolves: a force, entry 31, a program from entry 7 and from the week table, nothing; and a carry
to entry 31, to the program of entry 7, to an empty program and to nothing. -/
theorem witness_ResolutionPrefersForceThenEvent :
    (TablesCanonical evening ∧ evening.forceOf 13 = some { plan := 0, ends := some (9499, 1021) } ∧ evening.forceOf 12 = none) ∧
    (Wins evening 12 9499 1020 31 entry31 ∧ entry31.action = .plan 41 1020 1410) ∧
    (InUse evening 12 9499 960 21 7 ∧ ⟨960, 23, false⟩ ∈ evening.program 21 ∧
      (∀ x ∈ evening.program 21, x.start ≤ 960 → x.start ≤ 960) ∧ ((evening.program 21).map (·.start)).Pairwise (· < ·)) ∧
    InUse evening 12 9399 960 5 0 ∧
    (NoEntry evening 64 9499 0 ∧ (evening.week 64).getD ((9499 + 5) % 7) 0 = 0 ∧ evening.forceOf 64 = none) ∧
    (InUse evening 12 9500 359 21 7 ∧ (∀ x ∈ evening.program 21, 359 < x.start) ∧ InUse evening 12 9499 1439 21 7 ∧
      ⟨1380, 22, true⟩ ∈ evening.program 21 ∧ (∀ x ∈ evening.program 21, x.start ≤ 1380)) ∧
    (TablesCanonical lateEntry ∧ InUse lateEntry 12 9500 0 21 7 ∧
      Wins lateEntry 12 9499 1439 31 { entry31 with action := .plan 41 1020 1440 }) ∧
    (InUse evening 12 9401 0 21 7 ∧ InUse evening 12 9400 1439 5 0 ∧ evening.program 5 = []) ∧
    (InUse lateEntry 12 9401 0 21 7 ∧ NoEntry lateEntry 12 9400 1439 ∧ (lateEntry.week 12).getD ((9400 + 5) % 7) 0 = 0) :=
  ⟨⟨evening_is_canonical, by decide, by decide⟩, ⟨wins_of _ _ _ _ _ _ (by decide), rfl⟩,
    ⟨.inl ⟨entry7, wins_of _ _ _ _ _ _ (by decide), rfl⟩, by decide, by decide, by decide⟩,
    .inr ⟨noEntry_of _ _ _ _ (by decide), by decide⟩, ⟨noEntry_of _ _ _ _ (by decide), by decide, by decide⟩,
    ⟨.inl ⟨entry7, wins_of _ _ _ _ _ _ (by decide), rfl⟩, by decide, .inl ⟨entry7, wins_of _ _ _ _ _ _ (by decide), rfl⟩,
      by decide, by decide⟩,
    ⟨lateEntry_is_canonical, .inl ⟨entry7, wins_of _ _ _ _ _ _ (by decide), rfl⟩, wins_of _ _ _ _ _ _ (by decide)⟩,
    ⟨.inl ⟨entry7, wins_of _ _ _ _ _ _ (by decide), rfl⟩, .inr ⟨noEntry_of _ _ _ _ (by decide), by decide⟩, by decide⟩,
    ⟨.inl ⟨entry7, wins_of _ _ _ _ _ _ (by decide), rfl⟩, noEntry_of _ _ _ _ (by decide), by decide⟩⟩

/-- Minutes 960, 1020 and 1410 of the example of chapter 3, and the carry of minute 0 of day 9,500, for group 12. -/
theorem test_resolve :
    (resolve evening 12 9499 960) = Resolution.ofProgram 21 7 ⟨960, 23, false⟩ false ∧
    (resolve evening 12 9499 1020) = Resolution.ofEvent 31 41 false ∧
    (resolve evening 12 9499 1409) = Resolution.ofEvent 31 41 false ∧
    (resolve evening 12 9499 1410) = Resolution.ofProgram 21 7 ⟨1380, 22, true⟩ false ∧
    (resolve evening 12 9500 0) = Resolution.ofProgram 21 7 ⟨1380, 22, true⟩ true := by decide +kernel

theorem witness_ResolverPassGovernsEveryGroup :
    ready.resolver.owed = [] ∧ minute1020.resolver.owed = .signal 9499 1020 500000 :: [] ∧
    (minute1020.group 64).state = .empty ∧ (minute1020.group 12).state ≠ .empty ∧
    (let s := { evening with resolver := { evening.resolver with owed := [.asked] } }
     s.resolver.owed = .asked :: [] ∧ s.time.day = 9499 ∧ s.time.timeOfDay / 600 = 1020 ∧ s.time.count = 500000) := by
  decide +kernel

/-- The forces of R50 at the pass of minute 1020: one that ends then, one that ends a minute later, and an open one. -/
def forced : State :=
  { evening with resolver := { evening.resolver with forces :=
      [(12, some { plan := 0, ends := some (9499, 1020) }), (13, some { plan := 0, ends := some (9499, 1021) }),
       (14, some { plan := 0, ends := none })] } }

theorem witness_ResolverPassGovernsEveryGroup_forces :
    Table.wf none forced.resolver.forces = true ∧ forced.forceOf 1 = none ∧
    (∃ f, forced.forceOf 14 = some f ∧ f.ends = none) ∧
    (∃ f, forced.forceOf 12 = some f ∧ f.ends = some (9499, 1020) ∧
      ((9499 * 1440 + 1020 : Nat) : Int) - ((9499 * 1440 + 1020 : Nat) : Int) = 0 + 94371840 * 0) ∧
    (∃ f, forced.forceOf 13 = some f ∧ f.ends = some (9499, 1021) ∧
      ((9499 * 1440 + 1020 : Nat) : Int) - ((9499 * 1440 + 1021 : Nat) : Int) = -1 + 94371840 * 0) := by
  exact ⟨by decide, by decide, ⟨_, rfl, rfl⟩, ⟨_, rfl, rfl, by decide⟩, ⟨_, rfl, rfl, by decide⟩⟩

/-- R50: a force is gone at the pass of its end minute and stands before it; an open one stands; day 0 follows day 65535. -/
theorem test_forces_expire :
    (next .resolverPass forced).forceOf 12 = none ∧ ((next .resolverPass forced).forceOf 13).isSome = true ∧
    ((next .resolverPass forced).forceOf 14).isSome = true ∧
    (expireForces 0 0 { forced with resolver := { forced.resolver with
      forces := [(12, some { plan := 0, ends := some (65535, 1439) })] } }).forceOf 12 = none := by decide +kernel

/-- Table 4-4: the minute-1020 pass opens one switch at 500,950 for the cohort of groups 12 and 13, and slots 17 and 21 each
gain a reference. -/
theorem test_cohort_opening :
    ((next .resolverPass minute1020).group 12).pending = some { target := .slot 17, instant := 500950, opening := 500000 } ∧
    ((next .resolverPass minute1020).group 12).cohort = [13] ∧
    ((next .resolverPass minute1020).group 13).pending = some { target := .slot 21, instant := 500950, opening := 500000 } ∧
    ((next .resolverPass minute1020).slot 17).refs = 1 ∧ ((next .resolverPass minute1020).slot 5).refs = 1 ∧
    (next .resolverPass minute1020).governing 13
      = { source := ⟨.event, 32, none⟩, carry := false, plan := 42, missing := none } := by decide +kernel

/-- R56: entries 31 and 32 carry the notify mark, and the minute-1020 pass raises ENTRY-TAKEN for groups 12 and 13 in ascending
order (Table 12-9: no program entry, plan, carry, day and minute). -/
theorem test_pass_notices :
    raised (next .resolverPass minute1020) =
      [(.entryTaken, [.byte 12, .code 2, .byte 31, .byte 0x1C, .byte 0, .minute 0, .byte 41, .mark false, .day 9499, .minute 1020]),
       (.entryTaken, [.byte 13, .code 2, .byte 32, .byte 0x1C, .byte 0, .minute 0, .byte 42, .mark false, .day 9499, .minute 1020])] := by
  decide +kernel

/-- A force that ends at the next minute still governs, and group 13 is forced FREE (R50, R53). -/
theorem test_pass_under_force :
    ((next .resolverPass evening).group 13).pending = some { target := .free, instant := 500950, opening := 500000 } ∧
    ((next .resolverPass evening).group 12).cohort = [] := by decide +kernel

/-- Group `j` of a pass starts a switch to a slot of the key and the cycle length of `h`, as a test. -/
def startsAt (u : State) (day minute : Nat) (h : PlanHeader) (j : Nat) : Bool :=
  decide (1 ≤ j ∧ j ≤ 64 ∧ (u.group j).members ≠ 0 ∧ (u.group j).pending = none) &&
    match mapPlan u (resolve u j day minute).plan with
    | some (.slot k) => decide ((u.group j).current ≠ .slot k) &&
        (u.slot k).header.any (fun v => decide (v.cohortKey = h.cohortKey ∧ v.cycle = h.cycle))
    | _ => false

theorem mates_of (u : State) (day minute : Nat) (h : PlanHeader) (l : List Nat) (hl : l.Pairwise (· < ·))
    (hm : (List.range 65).filter (startsAt u day minute h) = l) : Mates u day minute h l := by
  refine ⟨hl, fun j => ?_⟩
  subst hm
  simp only [List.mem_filter, List.mem_range, Starting, startsAt, Bool.and_eq_true, decide_eq_true_eq]
  constructor
  · rintro ⟨-, ⟨h1, h2, h3, h4⟩, h5⟩
    split at h5
    · rename_i k hk
      rw [Bool.and_eq_true, decide_eq_true_eq, Option.any_eq_true] at h5
      obtain ⟨h5, v, hv, h6⟩ := h5
      exact ⟨k, v, ⟨h1, h2, h3, h4, hk, h5, hv⟩, of_decide_eq_true h6⟩
    · cases h5
  · rintro ⟨k, v, ⟨h1, h2, h3, h4, hk, h5, hv⟩, h6⟩
    have h2' : j ≤ 64 := h2
    refine ⟨by omega, ⟨h1, h2, h3, h4⟩, ?_⟩
    simp [hk, h5, hv, h6]

/-- Group 12 of minute 1020 with a pending switch, and on slot 17 already; a plan without a POSTED slot governs; and group 12 alone,
FREE. -/
def repass (g : GroupRecord) : State :=
  { minute1020 with groups := [(12, g), (13, evening.group 13)] }
def missing1020 : State :=
  { minute1020 with resolver := { minute1020.resolver with
      events := [(31, some { entry31 with action := .plan 99 1020 1410 }), (32, some entry32)] } }
def alone1020 : State := { minute1020 with groups := [(12, { GroupRecord.empty with members := 2 })] }

/-- The plan header of slots 17 and 21 as a cohort sees it. -/
def header17 : PlanHeader :=
  { plan := 41, group := 12, cycle := 1200, mode := .best, shorten := 15, lengthen := 20, window := 20, cohortKey := 7, count := 1 }

/-- `s` as its one owed pass finds it. -/
def found (s : State) : State := expireForces 9499 1020 { s with resolver := { s.resolver with owed := [] } }

/-- Each request of R59 and R60: an opening with the cohort of groups 12 and 13, one to FREE, one alone at T0 itself, a repeat, a
retarget, a cancel, a group that is there already, and a plan that is missing. -/
theorem witness_PassHandsOverItsRequests :
    (TablesCanonical minute1020 ∧ minute1020.resolver.owed = .signal 9499 1020 500000 :: [] ∧
      ((found minute1020).group 12).members ≠ 0 ∧ ((found minute1020).group 64).members = 0 ∧
      mapPlan (found minute1020) (resolve (found minute1020) 12 9499 1020).plan = some (.slot 17) ∧
      ((found minute1020).group 12).pending = none ∧ ((found minute1020).group 12).current ≠ .slot 17 ∧
      OpensWith (found minute1020) 9499 1020 12 500000 (.slot 17) [12, 13] 950) ∧
    (TablesCanonical evening ∧ mapPlan (found evening) (resolve (found evening) 13 9499 1020).plan = some .free ∧
      ((found evening).group 13).current ≠ .free ∧ OpensWith (found evening) 9499 1020 13 500000 .free [] 950) ∧
    (TablesCanonical alone1020 ∧ OpensWith (found alone1020) 9499 1020 12 500000 (.slot 17) [] 0) ∧
    (let s := repass { evening.group 12 with pending := some ⟨.slot 17, 500300, 499900⟩ }
     TablesCanonical s ∧ ((found s).group 12).pending = some ⟨.slot 17, 500300, 499900⟩) ∧
    (let s := repass { evening.group 12 with pending := some ⟨.slot 21, 500300, 499900⟩ }
     TablesCanonical s ∧ ((found s).group 12).current ≠ .slot 17) ∧
    (let s := repass { evening.group 12 with pending := some ⟨.slot 21, 500300, 499900⟩, reference := some ⟨17, 41, 499400, 1200⟩ }
     TablesCanonical s ∧ ((found s).group 12).current = .slot 17) ∧
    (TablesCanonical missing1020 ∧ mapPlan (found missing1020) (resolve (found missing1020) 12 9499 1020).plan = none) := by
  refine ⟨⟨?_, by decide, by decide, by decide, by decide +kernel, by decide, by decide,
      .inr ⟨17, header17, [12, 13], rfl, by decide, mates_of _ _ _ _ _ (by decide) (by decide +kernel), ?_⟩⟩,
    ⟨evening_is_canonical, by decide +kernel, by decide, .inl ⟨rfl, rfl, by decide +kernel⟩⟩,
    ⟨?_, .inr ⟨17, header17, [12], rfl, by decide, mates_of _ _ _ _ _ (by decide) (by decide +kernel), ?_⟩⟩,
    ⟨?_, by decide⟩, ⟨?_, by decide⟩, ⟨?_, by decide⟩, ⟨?_, by decide +kernel⟩⟩
  all_goals first | (unfold TablesCanonical; decide +kernel) | decide +kernel

/-- A retarget in a pass keeps the switch instant (R73), and a group alone that is FREE switches at T0 itself (R68 to R70). -/
theorem test_pass_requests :
    ((next .resolverPass (repass { evening.group 12 with pending := some ⟨.slot 21, 500300, 499900⟩ })).group 12).pending
      = some ⟨.slot 17, 500300, 499900⟩ ∧
    ((next .resolverPass alone1020).group 12).reference = some ⟨17, 41, 500000, 1200⟩ := by decide +kernel

/-! ### Groups -/

theorem witness_OwnNextZeroIsTheFirstMasterZero :
    ((evening.group 12).reference = some ⟨5, 23, 499400, 900⟩ ∧ sdiff 500000 (499400 : Count) = 600 ∧ (600 : Int) % 900 ≠ 0) ∧
    (sdiff 500300 (499400 : Count) % 900 = 0) ∧ GroupRecord.empty.reference = none := by decide

/-- The own next zeros of the example of chapter 4: 300 and 950 ds after T0. -/
theorem test_own_next_zeros :
    untilNextZero (evening.group 12) 500000 = 300 ∧ untilNextZero (evening.group 13) 500000 = 950 := by decide

/-- Group 12 at a count, on slot 5 with the epoch given. -/
def agedAt (count epoch : Count) : State :=
  { evening with time := { evening.time with count := count }
                 groups := [(12, { evening.group 12 with reference := some ⟨5, 23, epoch, 900⟩ })] }

theorem witness_RenewalKeepsMasterZeros :
    (((agedAt 16777800 0).group 12).reference = some ⟨5, 23, 0, 900⟩ ∧
      sdiff (agedAt 16777800 0).time.count 0 % 900 = 0 ∧ 16777216 ≤ sdiff (agedAt 16777800 0).time.count 0) ∧
    ¬ (16777216 ≤ sdiff (agedAt 16776900 0).time.count (0 : Count)) ∧ (ready.group 12).reference = none ∧
    (sdiff 1800 (900 : Count) % 900 = 0 ∧ sdiff 2147483647 (1800 : Count) + sdiff 1800 (900 : Count) < 2147483648) := by
  decide

theorem test_epoch_renewal :
    ((next (.epochRenewal 12) (agedAt 16777800 0)).group 12).reference = some ⟨5, 23, 16777800, 900⟩ ∧
    ((next (.epochRenewal 12) (agedAt 16776900 0)).group 12).reference = some ⟨5, 23, 0, 900⟩ := by decide +kernel

/-- Count 500,950 of the example of chapter 4, one group to FREE with the cohort of both. -/
def switching (target : Target) : State :=
  { evening with
    time := { evening.time with count := 500950 }
    groups := [(12, { evening.group 12 with pending := some ⟨target, 500950, 500000⟩, cohort := [13] }), (13, evening.group 13)] }

theorem witness_SwitchIsTakenAtItsInstant :
    TablesCanonical (switching (.slot 17)) ∧ TablesCanonical (switching .free) ∧
    ((evening.group 12).pending = none ∧ TablesCanonical evening) ∧
    (((switching (.slot 17)).group 12).pending = some ⟨.slot 17, 500950, 500000⟩ ∧
      (switching (.slot 17)).time.count = 500950 ∧ (∀ c, ((switching (.slot 17)).group 12).reference = some c → c.slot ≠ 17)) ∧
    ((switching (.slot 17)).slot 17).header.isSome = true ∧
    ((switching .free).group 12).reference = some ⟨5, 23, 499400, 900⟩ ∧ ((switching .free).slot 5).state = .posted ∧
    ((let s := { switching .free with library := { evening.library with
        slots := Table.set Slot.empty evening.library.slots 5 { evening.slot 5 with state := .retiring } } }
      (s.slot 5).state = .retiring ∧ (s.slot 5).refs ≤ 1) ∧ evening.time.count ≠ 500950) ∧
    117 ∈ (switching .free).membersOf 12 := by
  refine ⟨by unfold TablesCanonical; decide +kernel, by unfold TablesCanonical; decide +kernel,
    ⟨by decide, evening_is_canonical⟩, ⟨by decide, by decide, ?_⟩, by decide, by decide, by decide, by decide, by decide⟩
  intro c hc
  have h : ((switching (.slot 17)).group 12).reference = some ⟨5, 23, 499400, 900⟩ := by decide
  rw [h] at hc
  cases hc
  decide

/-- Table 4-5: group 12 runs slot 17 from 500,950 with C = 1200, slot 5 is released, and SWITCH-DONE is raised. -/
theorem test_switch_taken :
    ((next (.switchTaken 12) (switching (.slot 17))).group 12).reference = some ⟨17, 41, 500950, 1200⟩ ∧
    (next (.switchTaken 12) (switching (.slot 17))).resumeOf 12
      = { plan := 41, checkCode := some 0x1234, cycle := 1200, epoch := 500950 } ∧
    ((next (.switchTaken 12) (switching (.slot 17))).slot 5).refs = 0 ∧
    ((next (.switchTaken 12) (switching (.slot 17))).tracker 117).previous = some (currentTarget (switching (.slot 17)) 117) ∧
    ((next (.switchTaken 12) (switching (.slot 17))).slot 5).state = .posted ∧
    raised (next (.switchTaken 12) (switching (.slot 17)))
      = [(.switchDone, [.byte 12, .byte 5, .byte 23, .byte 17, .byte 41, .mark false, .byte 0x0F, .count 500950, .length 1200,
          .count 500000, .byte 1, .byte 13])] := by decide +kernel

/-- A switch request of the example's pass. -/
def toSlot (k : Target) : SwitchRequest := { group := 12, target := k, t0 := 500000, cycle := 1200, key := 7, cohort := [12, 13] }

theorem witness_SwitchRequestOpensRetargetsOrCancels :
    (ready.group 12).state = .empty ∧ (evening.group 12).state ≠ .empty ∧
    ((evening.group 12).pending = none ∧ (evening.group 12).current = (toSlot (.slot 5)).target ∧
      (evening.group 12).current ≠ (toSlot (.slot 17)).target ∧ 950 ≠ 0) ∧
    (((switching (.slot 17)).group 12).pending = some ⟨.slot 17, 500950, 500000⟩ ∧
      ((switching (.slot 17)).group 12).current = (toSlot (.slot 5)).target ∧
      12 ∉ ((switching (.slot 17)).group 12).cohort ∧ ((switching (.slot 17)).group 12).cohort.Nodup ∧
      ((switching (.slot 17)).group 12).current ≠ (toSlot (.slot 21)).target) ∧
    (((switching .free).group 12).pending = some ⟨.free, 500950, 500000⟩ ∧ .free ≠ (toSlot (.slot 21)).target) ∧
    ((evening.slot 17).header.isSome = true ∧ (evening.group 12).reference = some ⟨5, 23, 499400, 900⟩) ∧
    TablesCanonical evening := by
  refine ⟨by decide, by decide, by decide, by decide, by decide, by decide, evening_is_canonical⟩

/-- Every group reference that a switch request moves (R73 to R75): the retarget releases slot 17 and takes slot 21, an opening at
T0 takes slot 17 and releases slot 5. -/
theorem test_switch_references :
    ((serveSwitch (toSlot (.slot 21)) 0 (switching (.slot 17))).slot 21).refs = 1 ∧
    ((serveSwitch (toSlot (.slot 17)) 0 evening).slot 17).refs = 1 ∧ ((serveSwitch (toSlot (.slot 17)) 0 evening).slot 5).refs = 0 ∧
    ((serveSwitch (toSlot (.slot 17)) 0 evening).group 12).reference = some ⟨17, 41, 500000, 1200⟩ := by decide +kernel

/-- Group 13's one member leaves with a reference, a pending switch, or both; group 12 shares its cohort. -/
def parting (reference : Option Reference) (pending : Option PendingSwitch) : State :=
  { evening with groups := [(12, { evening.group 12 with cohort := [13] }),
      (13, { evening.group 13 with reference := reference, pending := pending, cohort := [12] })] }

theorem site_fits (s : State) (n l a g : Nat)
    (h : 1 ≤ n ∧ n ≤ 384 ∧ l ≤ 7 ∧ 1 ≤ a ∧ a ≤ 254 ∧ g ≤ 64 ∧ ((s.sitesOn l).filter (· != n)).length < 48 ∧
      (g = 0 ∨ ((s.membersOf g).filter (· != n)).length < 48))
    (hs : s.storing = false)
    (hr : s.roster.all (fun p => decide (p.1 = n) || p.2.all (fun e => !(decide (e.line = l) && decide (e.address = a)))) = true) :
    WriteSiteFits s n l a g := by
  obtain ⟨h1, h2, h3, h4, h5, h6, h7, h8⟩ := h
  refine ⟨h1, h2, h3, h4, h5, h6, hs, ?_, h7, h8⟩
  intro m e hm he ⟨hl, ha⟩
  have := List.all_eq_true.1 hr _ (mem_of_get _ _ _ he)
  simp [hm, hl, ha] at this

/-- `evening` with a site of no group. -/
def ungrouped : State := { evening with roster := evening.roster ++ [(301, some ⟨2, 50, 0⟩)] }

theorem witness_GroupsFollowTheirMembers :
    (Ready evening ∧ TablesCanonical evening ∧ evening.storing = false ∧ evening.time.valid = true) ∧
    (WriteSiteFits evening 384 7 254 64 ∧ evening.rosterEntry 384 = none ∧ (evening.group 64).members = 0) ∧
    (WriteSiteFits evening 5 3 50 12 ∧ evening.rosterEntry 5 = none ∧ (evening.group 12).members ≠ 0) ∧
    (WriteSiteFits evening 208 3 42 13 ∧ evening.rosterEntry 208 = some ⟨3, 42, 12⟩ ∧ 2 ≤ (evening.group 12).members) ∧
    (WriteSiteFits evening 208 3 42 0) ∧
    (evening.rosterEntry 117 = some ⟨3, 41, 12⟩ ∧ evening.rosterEntry 300 = some ⟨2, 41, 13⟩ ∧ (evening.group 13).members ≤ 1 ∧
      (evening.group 13).reference = some ⟨6, 25, 498950, 1000⟩ ∧ (evening.group 13).pending = none) ∧
    (let s := parting none (some ⟨.slot 21, 500950, 500000⟩)
     TablesCanonical s ∧ (s.group 13).members ≤ 1 ∧ 12 ∈ (s.group 13).cohort ∧ (s.group 13).cohort.Nodup ∧ 64 ∉ (s.group 13).cohort) ∧
    (let s := parting (some ⟨6, 25, 498950, 1000⟩) (some ⟨.slot 21, 500950, 500000⟩)
     TablesCanonical s ∧ (s.group 13).reference = some ⟨6, 25, 498950, 1000⟩ ∧ (s.group 13).pending = some ⟨.slot 21, 500950, 500000⟩) := by
  refine ⟨⟨evening_is_ready, evening_is_canonical, rfl, rfl⟩, ⟨site_fits _ _ _ _ _ ?_ rfl ?_, ?_⟩,
    ⟨site_fits _ _ _ _ _ ?_ rfl ?_, ?_⟩, ⟨site_fits _ _ _ _ _ ?_ rfl ?_, ?_⟩, site_fits _ _ _ _ _ ?_ rfl ?_, ?_,
    ⟨?_, ?_⟩, ⟨?_, ?_⟩⟩
  all_goals first | (unfold TablesCanonical; decide +kernel) | decide +kernel

/-- WRITE-SITE of a site of no group, of the last member of a group, whose cohort names the group it goes to or does not, and of a
site that changes its line and address within its group; each with the line or address kept and changed. -/
theorem witness_GroupsFollowTheirMembers_moves :
    (Ready ungrouped ∧ TablesCanonical ungrouped ∧ ungrouped.rosterEntry 301 = some ⟨2, 50, 0⟩ ∧
      WriteSiteFits ungrouped 301 2 50 12 ∧ WriteSiteFits ungrouped 301 7 1 64) ∧
    (WriteSiteFits evening 300 2 41 0 ∧ WriteSiteFits evening 300 7 254 64 ∧ (evening.group 13).members ≤ 1) ∧
    (let s := parting (some ⟨6, 25, 498950, 1000⟩) (some ⟨.free, 500950, 500000⟩)
     Ready s ∧ TablesCanonical s ∧ s.rosterEntry 300 = some ⟨2, 41, 13⟩ ∧ WriteSiteFits s 300 2 41 12 ∧
     12 ∈ (s.group 13).cohort ∧ WriteSiteFits s 300 3 1 64 ∧ 64 ∉ (s.group 13).cohort) ∧
    (WriteSiteFits evening 208 3 60 12 ∧ WriteSiteFits evening 208 2 60 12 ∧ evening.rosterEntry 208 = some ⟨3, 42, 12⟩) ∧
    WriteSiteFits ungrouped 301 2 51 0 := by
  refine ⟨⟨⟨rfl, rfl⟩, ?_, ?_, site_fits _ _ _ _ _ ?_ rfl ?_, site_fits _ _ _ _ _ ?_ rfl ?_⟩,
    ⟨site_fits _ _ _ _ _ ?_ rfl ?_, site_fits _ _ _ _ _ ?_ rfl ?_, ?_⟩,
    ⟨⟨rfl, rfl⟩, ?_, ?_, site_fits _ _ _ _ _ ?_ rfl ?_, ?_, site_fits _ _ _ _ _ ?_ rfl ?_, ?_⟩,
    ⟨site_fits _ _ _ _ _ ?_ rfl ?_, site_fits _ _ _ _ _ ?_ rfl ?_, ?_⟩, site_fits _ _ _ _ _ ?_ rfl ?_⟩
  all_goals first | (unfold TablesCanonical; decide +kernel) | decide +kernel

/-- Site 301 joins group 12, which has members, and the EMPTY group 64, which asks for a pass; the last member of group 13 leaves
it for group 12 of its cohort: the current slot, and then nothing of a pending FREE, is released. -/
theorem test_write_site_moves :
    ((next (.writeSite 1 301 2 50 12) ungrouped).group 12).members = 3 ∧
    (next (.writeSite 1 301 7 1 64) ungrouped).resolver.owed.length = 2 ∧
    (let t := next (.writeSite 1 300 2 41 12) (parting (some ⟨6, 25, 498950, 1000⟩) (some ⟨.free, 500950, 500000⟩))
     (t.group 13).state = .empty ∧ (t.group 12).members = 3 ∧ (t.group 12).cohort = [] ∧ (t.slot 6).refs = 0) := by decide +kernel

/-- R76: site 208 goes from group 12 to group 13, which keep their plans; and an EMPTY group left with a pending switch. -/
theorem test_groups_follow :
    ((next (.writeSite 1 208 3 42 13) evening).group 12).members = 1 ∧
    ((next (.writeSite 1 208 3 42 13) evening).group 13).members = 2 ∧
    ((next (.writeSite 1 208 3 42 13) evening).group 12).reference = (evening.group 12).reference ∧
    ((next (.removeSite 1 300) (parting none (some ⟨.slot 21, 500950, 500000⟩))).group 12).cohort = [] ∧
    ((next (.writeSite 1 384 7 254 64) evening).resolver.owed.length = 2) := by decide +kernel

/-- The retarget and cancel variants of the example of chapter 4. -/
theorem test_retarget_and_cancel :
    ((serveSwitch (toSlot (.slot 21)) 0 (switching (.slot 17))).group 12).pending = some ⟨.slot 21, 500950, 500000⟩ ∧
    ((serveSwitch (toSlot (.slot 21)) 0 (switching (.slot 17))).group 12).cohort = [] ∧
    ((serveSwitch (toSlot (.slot 5)) 0 (switching (.slot 17))).group 12).pending = none ∧
    ((serveSwitch (toSlot (.slot 5)) 0 (switching (.slot 17))).group 12).state = .running := by decide +kernel

/-! ### Orders: the worked examples of chapter 5 -/

/-- Site 117's floor and target in the examples of chapter 5. -/
def floor117 : FloorValues := { intervals := 4, minimums := [250, 120, 100, 80], minCycle := 600, maxCycle := 1200 }
def target117 : SiteTarget :=
  { id := { slot := 5, instant := 600000 }, plan := 23, epoch := 600000, cycle := 900, offset := 0,
    splits := [400, 200, 150, 150], modeOverride := none, mode := .best, shorten := 15, lengthen := 20, window := 20,
    floor := some floor117 }

/-- Kind, length and splits of an order for a predicted zero. -/
def orderAt (t : SiteTarget) (zp : Count) : OrderKind × Option Nat × List Nat :=
  let d := decideOrder (.coordinated t) zp false false
  (d.kind, d.length, d.splits)

theorem test_shortening_seek :
    orderAt target117 602140 = (.shortened, some 765, [400, 146, 116, 103]) ∧
    orderAt target117 602905 = (.shortened, some 765, [400, 146, 116, 103]) ∧
    orderAt target117 603670 = (.shortened, some 830, [400, 172, 132, 126]) ∧
    orderAt target117 604500 = (.nominal, some 900, [400, 200, 150, 150]) := by decide +kernel

/-- The lengthening seek: λ = 700, then 880; and the modes and limits of its last paragraph. -/
theorem test_lengthening_seek :
    orderAt target117 600700 = (.lengthened, some 1080, [580, 200, 150, 150]) ∧
    orderAt target117 600880 = (.lengthened, some 920, [420, 200, 150, 150]) ∧
    (decideOrder (.coordinated { target117 with mode := .shorten }) 600700 false false).correction = 135 ∧
    (decideOrder (.coordinated { target117 with shorten := 0, lengthen := 0 }) 600700 false false).reason = .blocked := by
  decide +kernel

/-- The order of 500,318 in the example across the switch instant: lag 1,150, lengthened by 50. -/
theorem test_order_across_switch :
    orderAt { target117 with epoch := 500950, cycle := 1200, offset := 300, splits := [500, 300, 200, 200],
                             floor := some { floor117 with maxCycle := 1500 } } 501200
      = (.lengthened, some 1250, [550, 300, 200, 200]) := by decide +kernel

theorem witness_LengthenedOrderGrowsTheCoordinatedSplit :
    target117.splits = 400 :: [200, 150, 150] ∧ sumOf target117.splits = target117.cycle ∧
    (corrected target117 { lag := 700, shortenNeed := 700, lengthenNeed := 200 }).kind = .lengthened := by decide +kernel

/-- R100 on d = 135 over the excesses 80, 50 and 70 (200 in all): 54, 33.75 and 47.25, so interval 2 makes up the one left. -/
theorem witness_ShortenedOrderSharesTheCorrection :
    MeetsFloor target117 floor117 ∧ target117.splits = 400 :: [200, 150, 150] ∧
    (corrected target117 { lag := 340, shortenNeed := 340, lengthenNeed := 560 }).kind = .shortened ∧
    (corrected target117 { lag := 340, shortenNeed := 340, lengthenNeed := 560 }).correction = 135 ∧
    List.zipWith (· - ·) [200, 150, 150] floor117.minimums.tail = [80, 50, 70] ∧ removals 135 [80, 50, 70] = [54, 34, 47] := by
  refine ⟨by unfold MeetsFloor; decide, ?_⟩; decide +kernel

theorem witness_EveryOrderKeepsTheFloor : MeetsFloor target117 floor117 := by unfold MeetsFloor; decide

theorem witness_OrderKindFollowsNeedsAndLimits :
    0 < target117.cycle ∧ ((700 : Nat) : Int) = (sdiff 600700 target117.epoch - target117.offset) % (target117.cycle : Int) ∧
    ((0 : Nat) : Int) = (sdiff 600900 target117.epoch - target117.offset) % (target117.cycle : Int) ∧
    ((1 : Nat) : Int) = (sdiff 600001 target117.epoch - target117.offset) % (target117.cycle : Int) ∧ 1 < min 2 (900 - 2) ∧
    (smaxOf target117 = 135 ∧ lmaxOf target117 = 180) ∧
    (smaxOf { target117 with mode := .lengthen } = 0 ∧ lmaxOf { target117 with mode := .shorten } = 0 ∧
      lmaxOf { target117 with mode := .lengthen } ≠ 0 ∧ smaxOf { target117 with mode := .shorten } ≠ 0) ∧
    (smaxOf { target117 with shorten := 0, lengthen := 0 } = 0 ∧ lmaxOf { target117 with shorten := 0, lengthen := 0 } = 0) ∧
    ((340 + 135 - 1) / 135 < (560 + 180 - 1) / 180 ∧ (200 + 180 - 1) / 180 ≤ (700 + 135 - 1) / 135) := by decide +kernel

/-- The three ways to a NOMINAL order of target 117, and a FREE order (R95, R96). -/
theorem test_free_and_nominal_orders :
    (let d := decideOrder .free 600340 true true; (d.kind, d.length, d.splits, d.correction)) = (.free, none, [], 0) ∧
    [decideOrder (.coordinated target117) 600340 false true, decideOrder (.coordinated target117) 600340 true false,
      decideOrder (.coordinated target117) 600001 false false].map (fun d => (d.kind, d.length, d.splits, d.correction, d.reason))
      = [(.nominal, some 900, [400, 200, 150, 150], 0, .disturbed), (.nominal, some 900, [400, 200, 150, 150], 0, .held),
         (.nominal, some 900, [400, 200, 150, 150], 0, .nominalLag)] := by decide +kernel

/-- A target with a floor, with one interval, and with an override of each mode (R97). -/
theorem witness_OrderKindFollowsNeedsAndLimits_limits :
    (target117.floor = some floor117 ∧ target117.splits.length = floor117.minimums.length ∧
      200 = sumOf ((List.range (target117.splits.length - 1)).map
        (fun i => target117.splits.getD (i + 1) 0 - floor117.minimums.getD (i + 1) 0))) ∧
    ([900].length = [250].length ∧ 0 = sumOf ((List.range ([900].length - 1)).map (fun i => [900].getD (i + 1) 0))) ∧
    { target117 with modeOverride := some .lengthen, mode := .shorten }.modeOverride = some .lengthen := by decide

/-- R97 on site 117: X = 80 + 50 + 70 = 200, C − minC = 300, maxC − C = 300, and the percentages; the override goes before the
header's mode. -/
theorem test_limits :
    (smaxOf { target117 with shorten := 25 }, lmaxOf { target117 with lengthen := 40 }) = (200, 300) ∧
    smaxOf { target117 with floor := some { floor117 with minCycle := 800 } } = 100 ∧
    smaxOf { target117 with modeOverride := some .lengthen, mode := .shorten } = 0 ∧
    lmaxOf { target117 with modeOverride := some .lengthen, mode := .shorten } = 180 ∧
    smaxOf { target117 with splits := [900], floor := some { floor117 with intervals := 1, minimums := [250] } } = 0 := by
  decide +kernel

/-! ### Reports: the shortening seek of chapter 5 and the lost site of chapter 8 -/

/-- A NOMINAL order of 900 ds. -/
def nominal900 (sequence : Byte) : Order :=
  { sequence := sequence, kind := .nominal, length := some 900, splits := [400, 200, 150, 150], correction := 0,
    target := some target117.id, basis := none, cause := .zero }

/-- The report of t = 601,262. -/
def report601262 : Report :=
  { captured := 601262, cycleCounter := 41, elapsed := 22, running := some 16, held := some 16, flags := 0, relayAck := 0 }

/-- Site 117's tracker before that report. -/
def tracker117 : Tracker :=
  { Tracker.reset with
    state := .seeking, anchor := true, lastZero := some 600340, baseline := some 40, stateAtZero := some .seeking
    runningAtZero := some 15, ring := [nominal900 14, nominal900 15, nominal900 16], nextSequence := 17 }

/-- Group 12 runs plan 23 from 600,000 with site 117 as its member; reports of the site wait for every block. -/
def tracking (t : Tracker) (r : Report) : State :=
  { readyAt 601262 9499 0 with
    roster := [(117, some ⟨3, 41, 12⟩)]
    floors := { FloorStore.delivered with effective := [(117, some floor117)] }
    library := { slots := [(5, posted 23 12 900 1 117 [400, 200, 150, 150])], freeList := [], checkQueue := [], checking := false }
    groups := [(12, { GroupRecord.empty with members := 1, lastSwitch := some 600000, reference := some ⟨5, 23, 600000, 900⟩ })]
    trackers := Table.set Tracker.reset [] 117 t
    links := [(117, { LinkRecord.reset with online := true })]
    lines := [(3, { Line.reset with state := .active })]
    handed := { stu := [(117, { report := r, disturbance := none })], cm := [(117, r)], fu := [(117, r)] } }

/-- Site 117's site is in no group: its target is FREE. -/
def unassigned (t : Tracker) (r : Report) : State :=
  { tracking t r with roster := [(117, some ⟨3, 41, 0⟩)], groups := [] }

/-- The report as the STU has it, and one of the same moment with PREEMPT. -/
def entry601262 : StuReport := { report := report601262, disturbance := none }
def preempted : Report := { report601262 with flags := 0x02 }

theorem witness_StuReportIsKeptAndBringsOnline :
    takeReport 117 ready.handed.stu = none ∧
    (takeReport 117 (tracking tracker117 report601262).handed.stu = some (entry601262, []) ∧
      ((unassigned { tracker117 with state := .free } report601262).tracker 117).state = .free ∧
      ((unassigned { tracker117 with state := .free } report601262).tracker 117).baseline ≠ some report601262.cycleCounter) ∧
    (((tracking { tracker117 with baseline := some 41 } report601262).tracker 117).baseline = some report601262.cycleCounter ∧
      report601262.flags &&& 7 = 0 ∧ preempted.flags &&& 7 ≠ 0 ∧
      ((tracking { tracker117 with baseline := some 41 } report601262).tracker 117).state = .seeking) ∧
    ((tracking Tracker.reset report601262).tracker 117).state = .offline ∧
    (currentTarget (tracking Tracker.reset report601262) 117).isFree = false ∧
    (currentTarget (unassigned Tracker.reset report601262) 117).isFree = true ∧
    (let u : Tracker := { tracker117 with state := .acquiring, anchor := false }
     ((tracking u report601262).tracker 117).state = .acquiring ∧ ((tracking u report601262).tracker 117).anchor = false ∧
     ReferenceLength (tracking u report601262) 117 601240 900) ∧
    (601240 : Count) = report601262.captured - BitVec.ofNat 32 report601262.elapsed := by
  refine ⟨by decide, by decide +kernel, by decide, by decide, by decide, by decide, ⟨by decide, by decide, ?_⟩, by decide⟩
  exact .inl ⟨target117, by decide +kernel, rfl⟩

/-- R90: a blocking flag without a new zero; R93 and R102: an unanchored ACQUIRING site is anchored by its next clear report, and the
order is computed on the reference length 900 from 601,240. -/
theorem test_reports_without_a_zero :
    ((next (.stuReport 117 false) (tracking { tracker117 with baseline := some 41 } preempted)).tracker 117).state = .acquiring ∧
    (let s := tracking { tracker117 with state := .acquiring, anchor := false } report601262
     ((next (.stuReport 117 false) s).tracker 117).anchor = true ∧
     ((next (.stuReport 117 false) s).linkOf 117).pendingOrder.bind (·.basis)
       = some { zk := 601240, lk := 900, zp := 602140 }) := by decide +kernel

/-- A FREE order under sequence 16. -/
def free16 : Order := { nominal900 16 with kind := .free, length := none, splits := [], target := none }

/-- The newest order of the ring is a coordinated one, a FREE one, or there is none. -/
theorem witness_StuReportIsKeptAndBringsOnline_free :
    (∀ t ∈ [{ tracker117 with state := .offline }, { tracker117 with state := .offline, ring := [nominal900 15, free16] }, Tracker.reset],
      ((unassigned t report601262).tracker 117).state = .offline ∧ (currentTarget (unassigned t report601262) 117).isFree = true) ∧
    tracker117.ring.getLast? = some (nominal900 16) ∧ free16.kind = .free ∧ Tracker.reset.ring.getLast? = none := by decide +kernel

/-- R90, R104: order 17 is FREE with cause FREEING and fills the slot; after a FREE order none is issued. -/
theorem test_freeing_order :
    (let t := next (.stuReport 117 false) (unassigned { tracker117 with state := .offline } report601262)
     (t.tracker 117).state = .free ∧ (t.tracker 117).ring.map (·.sequence) = [14, 15, 16, 17] ∧ (t.tracker 117).nextSequence = 18 ∧
     (t.linkOf 117).pendingOrder = some { free16 with sequence := 17, cause := .freeing }) ∧
    (let t := next (.stuReport 117 false)
       (unassigned { tracker117 with state := .offline, ring := [nominal900 15, free16] } report601262)
     (t.tracker 117).state = .free ∧ (t.tracker 117).ring = [nominal900 15, free16] ∧ (t.linkOf 117).pendingOrder = none) := by
  decide +kernel

/-- The slow poll of 603,700 in the example of chapter 8: a first report, and order 18 of 830 ds. -/
theorem test_first_report :
    (let s := tracking { tracker117 with state := .offline, nextSequence := 18 }
        { captured := 603700, cycleCounter := 44, elapsed := 30, running := some 17, held := some 17, flags := 0, relayAck := 0 }
     ((next (.stuReport 117 false) s).tracker 117).state = .acquiring ∧
     ((next (.stuReport 117 false) s).tracker 117).anchor = true ∧
     ((next (.stuReport 117 false) s).tracker 117).lastZero = some 603670 ∧
     ((next (.stuReport 117 false) s).linkOf 117).pendingOrder.map (fun o => (o.sequence, o.length, o.splits))
       = some (18, some 830, [400, 172, 132, 126])) := by decide +kernel

theorem witness_NewZeroIsClassifiedAndOrdered :
    (takeReport 117 (tracking tracker117 report601262).handed.stu = some (entry601262, []) ∧
      takeReport 117 (tracking tracker117 preempted).handed.stu = some ({ entry601262 with report := preempted }, []) ∧
      decide (report601262.flags &&& 7 ≠ 0) = false ∧ decide (preempted.flags &&& 7 ≠ 0) = true) ∧
    (((tracking tracker117 report601262).tracker 117).state = .seeking ∧
      ((tracking tracker117 report601262).tracker 117).baseline ≠ some report601262.cycleCounter ∧
      ((tracking { tracker117 with state := .acquiring, anchor := false } preempted).tracker 117).anchor = false) ∧
    (601240 : Count) = report601262.captured - BitVec.ofNat 32 report601262.elapsed ∧
    (targetInForce (tracking tracker117 report601262) 117 601240 = .coordinated target117 ∧ 0 < target117.cycle ∧
      ((340 : Nat) : Int) = (sdiff 601240 target117.epoch - target117.offset) % (target117.cycle : Int)) ∧
    (tracker117.ring.find? (fun y => decide (some y.sequence = report601262.running)) = some (nominal900 16) ∧
      (nominal900 16).length = some 900 ∧ tracker117.ring.find? (fun y => decide (some y.sequence = some 99)) = none) ∧
    ((tracking tracker117 report601262).group 12).lastSwitch = some 600000 ∧
    (∀ y ∈ (tracking tracker117 report601262).monitor.zeros, y.site ≠ 117) := by
  refine ⟨by decide, by decide, by decide, by decide +kernel, by decide, by decide, by decide⟩

/-- Zero k of the shortening seek: SEEKING at lag 340, and order 17 of 765 ds in the slot and the ring. -/
theorem test_new_zero :
    ((next (.stuReport 117 false) (tracking tracker117 report601262)).tracker 117).state = .seeking ∧
    ((next (.stuReport 117 false) (tracking tracker117 report601262)).tracker 117).lagObserved = some 340 ∧
    ((next (.stuReport 117 false) (tracking tracker117 report601262)).linkOf 117).pendingOrder.map
      (fun o => (o.sequence, o.length, o.splits)) = some (17, some 765, [400, 146, 116, 103]) ∧
    ((next (.stuReport 117 false) (tracking tracker117 report601262)).tracker 117).ring.map (·.sequence) = [14, 15, 16, 17] := by
  decide +kernel

/-- R101 step 3, R93: a zero shown with a blocking flag is handed over with its lag, the site is ACQUIRING, and NOMINAL is ordered. -/
theorem test_blocking_zero :
    ((next (.stuReport 117 false) (tracking tracker117 preempted)).tracker 117).state = .acquiring ∧
    (next (.stuReport 117 false) (tracking tracker117 preempted)).monitor.zeros.map (fun z => (z.lagObserved, z.blocking))
      = [(some 340, true)] ∧
    ((next (.stuReport 117 false) (tracking tracker117 preempted)).linkOf 117).pendingOrder.map (·.kind) = some .nominal ∧
    (next (.stuReport 117 false) (tracking tracker117 preempted)).handed.cm = [] := by decide +kernel

/-- Site 117 before a switch at 601,250 that follows FREE: the target in force at its zero is FREE. -/
def freeBefore (r : Report) : State :=
  let s := tracking { tracker117 with previous := some .free, lagObserved := some 7 } r
  s.setGroup 12 { s.group 12 with lastSwitch := some 601250 }

theorem witness_NewZeroIsClassifiedAndOrdered_free :
    takeReport 117 (freeBefore report601262).handed.stu = some (entry601262, []) ∧
    targetInForce (freeBefore report601262) 117 601240 = .free ∧ ((freeBefore report601262).tracker 117).state = .seeking ∧
    targetInForce (freeBefore report601262) 117 602140 = .coordinated { target117 with id := ⟨5, 601250⟩ } ∧
    currentTarget (freeBefore report601262) 117 = .coordinated { target117 with id := ⟨5, 601250⟩ } := by decide +kernel

/-- R91 step 2: the state and the stored lag stand, the zero is handed over without a lag, and order 17 is computed. -/
theorem test_zero_under_free_target :
    (let t := next (.stuReport 117 false) (freeBefore report601262)
     ((t.tracker 117).state, (t.tracker 117).lagObserved, (t.tracker 117).lastZero) = (.seeking, some 7, some 601240) ∧
     t.monitor.zeros.map (fun z => (z.zero, z.lagObserved, z.stateAfter)) = [(601240, none, .seeking)] ∧
     (t.linkOf 117).pendingOrder.map (fun o => (o.sequence, o.length)) = some (17, some 765) ∧
     (t.tracker 117).computation.map (fun c => (c.lagObserved, c.correction)) = some (none, 135)) := by decide +kernel

/-- Site 117 of group 12, where a settle judgement is pending, reports a zero at lag 5: it is IN-STEP and settles the group. -/
def settling (observed : List Nat) : State :=
  let s := tracking tracker117 { report601262 with captured := 600927 }
  s.setGroup 12 { s.group 12 with settlePending := true, observed := observed }

theorem witness_NewZeroIsClassifiedAndOrdered_settles :
    (((settling []).tracker 117).state = .seeking ∧ (600905 : Count) = 600927 - BitVec.ofNat 32 22 ∧
      targetInForce (settling []) 117 600905 = .coordinated target117 ∧
      ((5 : Nat) : Int) = (sdiff 600905 target117.epoch - target117.offset) % (target117.cycle : Int) ∧
      min 5 (900 - 5) ≤ target117.window) ∧
    ((settling []).groupOf 117 = 12 ∧ 117 ∉ ((settling []).group 12).observed ∧ 117 ∈ ((settling [117]).group 12).observed ∧
      ((settling []).group 12).lastSwitch = some 600000 ∧ 0 ≤ sdiff 600905 (600000 : Count)) ∧
    settledNotices ((settling []).setGroup 12 { (settling []).group 12 with observed := [117] }) 12 ≠ [] := by decide +kernel

/-- R79, R110: GROUP-SETTLED, 1,262 ds after the switch, at the report that settles the group; SITE-STATE, SEEKING to ACQUIRING, at a
blocking flag. -/
theorem test_settles_and_flags :
    raised (next (.stuReport 117 false) (settling []))
      = [(.groupSettled, [.byte 12, .byte 5, .byte 23, .count 600000, .count 601262, .signed 1262, .byte 1])] ∧
    raised (next (.stuReport 117 false) (tracking tracker117 preempted))
      = [(.siteState, [.site 117, .byte 12, .code 3, .code 2, .code 4, .count 601262, .mark false])] := by decide +kernel

/-- A report that carries PREEMPT, as in the example of chapter 9. -/
def report704900 : Report := { report601262 with captured := 704900, flags := 0x02, cycleCounter := 40 }

theorem witness_ReportFlagsDisturbAndLatch :
    takeReport 117 ready.handed.cm = none ∧ takeReport 117 ready.handed.fu = none ∧
    takeReport 117 (tracking tracker117 report704900).handed.cm = some (report704900, []) ∧
    takeReport 117 (tracking tracker117 report704900).handed.fu = some (report704900, []) ∧
    report704900.flags &&& 7 ≠ 0 ∧ report601262.flags &&& 7 = 0 ∧
    (0x02 : Byte) = report704900.flags &&& ~~~((tracking tracker117 report704900).raisedFlags 117) := by decide

/-- Count 704,900 of the example of chapter 9: PREEMPT latched, ATTN high, and the disturbance noted. -/
theorem test_preemption :
    (next (.fuReport 117) (tracking tracker117 report704900)).raisedFlags 117 = 0x02 ∧
    (next (.fuReport 117) (tracking tracker117 report704900)).flags.attn = true ∧
    ((next (.cmReport 117) (tracking tracker117 report704900)).monitorOf 117).lastDisturbance = some 704900 ∧
    ((next (.stuReport 117 false) (tracking tracker117 report704900)).tracker 117).state = .acquiring ∧
    ((next (.stuReport 117 false) (tracking tracker117 report704900)).tracker 117).anchor = false := by decide +kernel

/-! ### Targets that change -/

/-- Site 117 SEEKING, its newest order waiting, computed at zero 601,240 for 602,140. -/
def ordered : Order := { nominal900 16 with basis := some { zk := 601240, lk := 900, zp := 602140 } }
def reordering (t : Tracker) : State :=
  { tracking t report601262 with links := [(117, { LinkRecord.reset with online := true, pendingOrder := some ordered })] }
def seeking16 : Tracker := { tracker117 with ring := [nominal900 15, ordered] }

theorem witness_TargetChangesRecomputeAndFree :
    (((reordering seeking16).tracker 117).state.isCoordinated = true ∧ ((reordering seeking16).linkOf 117).pendingOrder ≠ none ∧
      ((reordering seeking16).tracker 117).ring.getLast? = some ordered ∧ ordered.basis = some { zk := 601240, lk := 900, zp := 602140 }) ∧
    (((reordering Tracker.reset).tracker 117).state.isCoordinated = false ∧
      ((tracking seeking16 report601262).linkOf 117).pendingOrder = none ∧
      (∀ o, ((reordering tracker117).tracker 117).ring.getLast? = some o → o.basis = none)) ∧
    (((tracking { tracker117 with state := .free } report601262).tracker 117).state = .free ∧
      (currentTarget (tracking { tracker117 with state := .free } report601262) 117).isFree = false) ∧
    (((unassigned seeking16 report601262).tracker 117).state.isCoordinated = true ∧
      (currentTarget (unassigned seeking16 report601262) 117).isFree = true ∧
      (∀ o, ((unassigned seeking16 report601262).tracker 117).ring.getLast? = some o → o.kind ≠ .free) ∧
      ∃ o, ((unassigned { tracker117 with ring := [{ nominal900 9 with kind := .free }] } report601262).tracker 117).ring.getLast? = some o ∧
        o.kind = .free) ∧
    ((reordering Tracker.reset).tracker 117).state = .offline := by
  refine ⟨by decide, ⟨by decide, by decide, ?_⟩, by decide, ⟨by decide, by decide, ?_, ⟨_, rfl, rfl⟩⟩, by decide⟩
  · intro o h
    have h' : ((reordering tracker117).tracker 117).ring.getLast? = some (nominal900 16) := by decide
    rw [h'] at h
    cases h
    rfl
  · intro o h
    have h' : ((unassigned seeking16 report601262).tracker 117).ring.getLast? = some ordered := by decide
    rw [h'] at h
    cases h
    decide

/-- R103: the waiting order is computed afresh for 602,140, lag 340 of the shortening seek; R104: in FREE a FREEING order waits. -/
theorem test_recompute_and_free :
    ((recompute 117 (reordering seeking16)).linkOf 117).pendingOrder.map (fun o => (o.sequence, o.length, o.cause))
      = some (17, some 765, .recompute) ∧
    ((evaluateTarget 117 (unassigned seeking16 report601262)).tracker 117).state = .free ∧
    ((evaluateTarget 117 (unassigned seeking16 report601262)).linkOf 117).pendingOrder.map (fun o => (o.kind, o.cause))
      = some (.free, .freeing) := by decide +kernel

/-- `reordering` with a plan that corrects in neither direction; the blocked-seek mark as given. -/
def blocking (mark : Option TargetId) : State :=
  (reordering { seeking16 with seekBlocked := mark }).setSlot 5
    { posted 23 12 900 1 117 [400, 200, 150, 150] with
      header := (posted 23 12 900 1 117 []).header.map (fun h => { h with shorten := 0, lengthen := 0 }) }

theorem witness_TargetChangesRecomputeAndFree_blocked :
    (targetInForce (reordering seeking16) 117 602140 = .coordinated target117 ∧
      (decideOrder (.coordinated target117) 602140 false false).reason ≠ .blocked) ∧
    (∀ m ∈ [none, some target117.id],
      ((blocking m).tracker 117).state.isCoordinated = true ∧ ((blocking m).linkOf 117).pendingOrder ≠ none ∧
      targetInForce (blocking m) 117 602140 = .coordinated { target117 with shorten := 0, lengthen := 0 } ∧
      ((blocking m).tracker 117).seekBlocked = m ∧ (blocking m).held 117 = false) ∧
    (decideOrder (.coordinated { target117 with shorten := 0, lengthen := 0 }) 602140 false false).reason = .blocked ∧
    ((340 : Nat) : Int) = (sdiff 602140 target117.epoch - target117.offset) % (target117.cycle : Int) := by decide +kernel

/-- R102: SEEK-BLOCKED with lag 340, the needs 340 and 560, and what the floor leaves: excess 200, and 300 either way; once for one
target. -/
theorem test_seek_blocked :
    raised (recompute 117 (blocking none))
      = [(.seekBlocked, [.site 117, .byte 12, .byte 5, .byte 23, .length 340, .length 340, .length 560, .code 0, .byte 0, .byte 0,
          .length 200, .signed 300, .signed 300])] ∧
    raised (recompute 117 (blocking (some target117.id))) = [] := by decide +kernel

/-- Group 12 with a switch pending at the present count, slot 9 among the slots, and site 117's order 16 waiting on basis `b`. -/
def turning (pending : Option PendingSwitch) (b : Basis) (t : Tracker) : State :=
  { reordering { t with ring := [nominal900 15, { ordered with basis := some b }] } with
    library :=
      { slots := [(5, posted 23 12 900 1 117 [400, 200, 150, 150]), (9, posted 41 12 1200 1 117 [520, 300, 200, 180])],
        freeList := [], checkQueue := [], checking := false }
    groups := [(12, { GroupRecord.empty with
      members := 1, lastSwitch := some 600000, reference := some ⟨5, 23, 600000, 900⟩, pending := pending })] }

/-- The basis of order 16, and one whose predicted zero lies before the switch. -/
def basis16 : Basis := { zk := 601240, lk := 900, zp := 602140 }
def basisBefore : Basis := { zk := 600340, lk := 900, zp := 601240 }

/-- Both kinds of target a member can come under, and each state it can be in: the order that waits is computed afresh for the
new switch, or for the target before it where the predicted zero lies before (R87). -/
theorem witness_members_at_a_switch :
    (∀ p ∈ [none, some ⟨Target.free, 601262, 601000⟩, some ⟨Target.slot 9, 601262, 601000⟩],
      TablesCanonical (turning p basis16 tracker117) ∧ 117 ∈ (turning p basis16 tracker117).membersOf 12 ∧
      AwaitsOrder (turning p basis16 tracker117) 117 basis16) ∧
    AwaitsOrder (turning (some ⟨.free, 601262, 601000⟩) basisBefore { tracker117 with previous := some (.coordinated target117) })
      117 basisBefore ∧
    ((reordering Tracker.reset).tracker 117).state = .offline ∧ 118 ∉ (reordering Tracker.reset).membersOf 12 ∧
    (∀ b, ¬ AwaitsOrder (tracking seeking16 report601262) 117 b) := by
  refine ⟨?_, ⟨by decide, by decide, _, rfl, rfl⟩, by decide, by decide, fun b h => h.2.1 (by decide)⟩
  intro p hp
  refine ⟨?_, ?_, ?_, ?_, _, rfl, rfl⟩
  · unfold TablesCanonical; revert p; decide +kernel
  all_goals (revert p; decide)

/-- An order waits for site 117, with this sequence number, kind, cause and target. -/
def waits (s : State) (sequence : Byte) (kind : OrderKind) (cause : OrderCause) (target : Option TargetId) : Bool :=
  (s.linkOf 117).pendingOrder.any
    (fun o => decide (o.sequence = sequence) && decide (o.kind = kind) && decide (o.cause = cause) && decide (o.target = target))

/-- R103 and R104 at a switch taken: to slot 9 a RECOMPUTE order for it; to FREE a RECOMPUTE order that is FREE already; and with
the predicted zero before the switch, a RECOMPUTE order for the old target and a FREEING order after it. -/
theorem test_members_follow :
    waits (next (.switchTaken 12) (turning (some ⟨.slot 9, 601262, 601000⟩) basis16 tracker117))
      17 .shortened .recompute (some ⟨9, 601262⟩) = true ∧
    waits (next (.switchTaken 12) (turning (some ⟨.free, 601262, 601000⟩) basis16 tracker117))
      17 .free .recompute none = true ∧
    ((next (.switchTaken 12) (turning (some ⟨.free, 601262, 601000⟩) basis16 tracker117)).tracker 117).state = .free ∧
    waits (next (.switchTaken 12) (turning (some ⟨.free, 601262, 601000⟩) basisBefore
      { tracker117 with previous := some (.coordinated target117) })) 18 .free .freeing none = true := by decide +kernel

/-- R103 at an opening to slot 9 with Ts after the predicted zero and before it, a retarget and a cancel. -/
theorem test_members_recomputed :
    waits (serveSwitch { toSlot (.slot 9) with t0 := 601262 } 900 (turning none basis16 tracker117))
      17 .shortened .recompute (some ⟨5, 600000⟩) = true ∧
    waits (serveSwitch { toSlot (.slot 9) with t0 := 601262 } 100 (turning none basis16 tracker117))
      17 .shortened .recompute (some ⟨9, 601362⟩) = true ∧
    waits (serveSwitch (toSlot (.slot 9)) 0 (turning (some ⟨.free, 601400, 601000⟩) basis16 tracker117))
      17 .shortened .recompute (some ⟨9, 601400⟩) = true ∧
    waits (serveSwitch (toSlot (.slot 5)) 0 (turning (some ⟨.free, 601400, 601000⟩) basis16 tracker117))
      17 .shortened .recompute (some ⟨5, 600000⟩) = true := by decide +kernel

/-! ### The deviant cycles of chapter 6 -/

/-- Zero 8 of the example: 921 measured against 900. -/
def zero8 : HandedZero :=
  { site := 117, zero := 707766, before := some 706845, delta := some 1, ran := some (nominal900 16),
    startState := some .seeking, blocking := false, disturbance := some 705044, stateAfter := .seeking, lagObserved := none,
    issued := none, watched := false }

/-- Site 117 with three deviations behind it and some zeros to judge. -/
def judging (zs : List HandedZero) : State :=
  { tracking tracker117 report601262 with
    handed := { stu := [], cm := [], fu := [] }
    monitor := { Monitor.reset with zeros := zs, records :=
      [(117, { deviations := 3, sign := some .short, lastDisturbance := some 705044 })] } }

theorem judging_is_canonical : TablesCanonical (judging [zero8]) := by unfold TablesCanonical; decide +kernel

theorem witness_CompletedCycleIsJudged :
    TablesCanonical (judging [zero8]) ∧ takeZero 117 ready.monitor.zeros = none ∧
    (takeZero 117 (judging [zero8]).monitor.zeros = some (zero8, []) ∧ zero8.watched = false ∧
      zero8.disturbance = some 705044) ∧
    ({ zero8 with before := none }.before = none ∧ ({ zero8 with delta := some 2 }.delta = some 2 ∧ 2 ≤ 2) ∧
      (∀ st, { zero8 with startState := none }.startState = some st → st.isCoordinated = false) ∧
      (∀ o, { zero8 with ran := none }.ran = some o → o.length = none) ∧ { zero8 with blocking := true }.blocking = true) ∧
    0 ≤ sdiff 706845 (706845 : Count) ∧
    (zero8.before = some 706845 ∧ zero8.delta = some 1 ∧ 1 < 2 ∧ TrackerState.seeking.isCoordinated = true ∧
      zero8.ran = some (nominal900 16) ∧ (nominal900 16).length = some 900 ∧
      (∀ t, zero8.disturbance = some t → sdiff t 706845 < 0) ∧
      (21 : Int) = sdiff zero8.zero 706845 - 900) ∧
    ((-10 : Int).natAbs ≤ (judging []).monitor.tolerance ∧ (judging []).monitor.tolerance < (11 : Int).natAbs) ∧
    (holdLimit (judging []).monitor.limitCode ≤ min 127 (3 + 1) ∧ (judging []).held 117 = false) := by
  refine ⟨judging_is_canonical, ?_, ?_, ?_, ?_, ⟨rfl, rfl, by decide, rfl, rfl, rfl, ?_, by decide⟩, ?_, ?_⟩
  · decide
  · decide
  · exact ⟨rfl, ⟨rfl, by decide⟩, (fun _ h => nomatch h), (fun _ h => nomatch h), rfl⟩
  · decide
  · intro t ht
    cases ht
    decide
  · decide
  · decide

/-- Zero 8: the count reaches 4 and the hold is set. Zero 6 of the example, from count 1: LONG, count 2, no hold. -/
theorem test_zero_judgement :
    (next (.zeroJudgement 117) (judging [zero8])).held 117 = true ∧
    ((next (.zeroJudgement 117) (judging [zero8])).monitorOf 117).deviations = 4 ∧
    ((next (.zeroJudgement 117) (judging [zero8])).monitorOf 117).sign = some .long ∧
    ((next (.zeroJudgement 117) (judging [{ zero8 with zero := 707745, before := some 706845 }])).monitorOf 117).deviations = 0 ∧
    (next (.zeroJudgement 117) (judging [{ zero8 with before := some 705044 }])).held 117 = false := by decide +kernel

/-- R119: SITE-HELD for zero 8: count 4 at limit 4, LONG, 921 against 900, tolerance 10, order 16 of kind NOMINAL. -/
theorem test_site_held :
    raised (next (.zeroJudgement 117) (judging [zero8]))
      = [(.siteHeld, [.site 117, .byte 12, .count 707766, .count 601262, .byte 4, .byte 4, .code 0, .signed 921, .length 900,
          .length 10, .byte 16, .code 1])] := by decide +kernel

/-- Zero 8 of a watched site, and of one that is watched no more. -/
def watching (n : Nat) (z : HandedZero) : State :=
  { judging [{ z with watched := true }] with monitor := { (judging [{ z with watched := true }]).monitor with watched := n } }

theorem witness_CompletedCycleIsJudged_watched :
    TablesCanonical (watching 117 zero8) ∧
    takeZero 117 (watching 117 zero8).monitor.zeros = some ({ zero8 with watched := true }, []) ∧
    (watching 117 zero8).monitor.watched = zero8.site ∧ (watching 208 zero8).monitor.watched ≠ zero8.site := by
  refine ⟨by unfold TablesCanonical; decide +kernel, by decide, by decide, by decide⟩

/-- The last six fields of the newest notice of a kind, queued or being sent. -/
def lastFields (kind : NoticeKind) (s : State) : Option (List Field) :=
  let all := (match s.link.inFlight with | some (.notice n) => [n] | _ => []) ++ s.link.notices
  (all.filter (fun n => decide (n.kind = kind))).getLast?.map (fun n => n.fields.drop (n.fields.length - 6))

/-- Table 6-3: zero 8 as the WATCH notice shows it, 921 against 900, DEVIANT, count 4, LONG, held; with zero 1 of 900 it would
show CONFORMING and count 0; and nothing is raised once another site is watched. -/
theorem test_watch_notice :
    lastFields .watch (next (.zeroJudgement 117) (watching 117 zero8))
      = some [.signed 921, .length 900, .code 1, .byte 4, .code 0, .mark true] ∧
    lastFields .watch (next (.zeroJudgement 117) (watching 117 { zero8 with zero := 707745 }))
      = some [.signed 900, .length 900, .code 0, .byte 0, .code 0, .mark false] ∧
    lastFields .watch (next (.zeroJudgement 117) (watching 208 zero8)) = none ∧
    (next (.zeroJudgement 117) (watching 117 zero8)).held 117 = true := by decide +kernel

/-- Order 17 of zero k of chapter 5. -/
def order17 : Order :=
  { nominal900 17 with kind := .shortened, length := some 765, splits := [400, 146, 116, 103], correction := 135 }

/-- Zero 8 with the computation and the order of zero k of chapter 5: λ = a = 340, b = 560, limits 135 and 180. -/
def ordered8 (shortenCycles lengthenCycles : Option Nat) : HandedZero :=
  { zero8 with
    lagObserved := some 340
    issued := some (order17, { lagObserved := some 340, needs := some ⟨340, 340, 560⟩,
                               limits := some ⟨135, 180, shortenCycles, lengthenCycles⟩, kind := .shortened
                               correction := 135, reason := .nothing }) }

/-- Table 6-3 in the order of Table 12-9, with every field present; and the cycle counts 254 for more and 255 for unbounded. -/
theorem test_watch_fields :
    (raised (next (.zeroJudgement 117) (watching 117 (ordered8 (some 3) (some 4))))).getLast?
      = some (.watch, [.site 117, .byte 12, .count 707766, .byte 255, .byte 255, .byte 63, .byte 1, .length 340, .code 3,
          .length 340, .length 340, .length 560, .length 135, .length 180, .byte 3, .byte 4, .code 1, .length 135, .byte 17,
          .code 2, .length 765, .code 0, .signed 921, .length 900, .code 1, .byte 4, .code 0, .mark true]) ∧
    ((raised (next (.zeroJudgement 117) (watching 117 (ordered8 none (some 300))))).getLast?.map
      (fun x => (x.2.drop 14).take 2)) = some [.byte 255, .byte 254] := by decide +kernel

/-- Site 117 held while SEEKING. -/
def holding : State := (judging []).setHeld 117 true

theorem witness_MonitorRequestsSetTheirRecords :
    Ready holding ∧ (holding.rosterEntry 1 = none ∧ holding.rosterEntry 384 = none) ∧
    (holding.rosterEntry 117 ≠ none ∧ holding.held 117 = true ∧ (holding.tracker 117).state = .seeking) ∧
    ((judging []).rosterEntry 117 ≠ none ∧ (judging []).held 117 = false ∧ Ready (judging [])) ∧
    (((judging []).tracker 117).state ≠ .free ∧ ((unassigned { tracker117 with state := .free } report601262).tracker 117).state = .free) ∧
    holding.storing = false ∧ (storing []).storing = true ∧ Ready (storing []) ∧
    (TablesCanonical holding ∧ (holding.tracker 117).state.isCoordinated = true ∧ holding.held 208 = false) := by
  refine ⟨⟨rfl, rfl⟩, by decide, by decide, ⟨by decide, by decide, rfl, rfl⟩, by decide, by decide, by decide, ⟨rfl, rfl⟩, ?_,
    by decide, by decide⟩
  unfold TablesCanonical; decide +kernel

/-- The release and the lowered limit of the example of chapter 6. -/
theorem test_release_hold :
    reply (.releaseHold 1 117) holding = some (.ok, [.total 1, .count 601262]) ∧
    ((next (.releaseHold 1 117) holding).tracker 117).state = .acquiring ∧
    ((next (.releaseHold 1 0) holding).monitorOf 117).deviations = 0 ∧
    ((next (.releaseHold 1 0) holding).tracker 117).anchor = false ∧
    raised (next (.releaseHold 1 117) holding)
      = [(.siteState, [.site 117, .byte 12, .code 3, .code 2, .code 5, .count 601262, .mark false])] ∧
    reply (.setMonitor 1 0 10 1) holding = some (.ok, [.length 10, .code 3, .length 10, .code 1, .byte 2, .total 1]) := by
  decide +kernel

/-- Site 117, IN-STEP, observed and held, in a group whose settle judgement waits for it; and site 9, held outside the roster. -/
def holdingTwo : State :=
  ((((settling [117]).setTracker 117 { tracker117 with state := .inStep }).setHeld 117 true).setHeld 9 true)

theorem witness_MonitorRequestsSetTheirRecords_all :
    Ready holdingTwo ∧ TablesCanonical holdingTwo ∧ heldSites holdingTwo = [9, 117] ∧
    holdNotices holdingTwo 117 false ≠ [] ∧ holdNotices holdingTwo 9 false = [] := by
  refine ⟨⟨rfl, rfl⟩, ?_, by decide +kernel, by decide +kernel, by decide +kernel⟩
  unfold TablesCanonical; decide +kernel

/-- R121, R79, R110: the release of site 0 settles group 12 and puts the site into ACQUIRING. -/
theorem test_release_all :
    reply (.releaseHold 1 0) holdingTwo = some (.ok, [.total 2, .count 601262]) ∧
    raised (next (.releaseHold 1 0) holdingTwo)
      = [(.groupSettled, [.byte 12, .byte 5, .byte 23, .count 600000, .count 601262, .signed 1262, .byte 1]),
         (.siteState, [.site 117, .byte 12, .code 4, .code 2, .code 5, .count 601262, .mark false])] ∧
    ((next (.releaseHold 1 0) holdingTwo).group 12).settlePending = false := by decide +kernel

theorem test_watch : (next (.watch 1 117) holding).monitor.watched = 117 := by decide

/-! ### Site flags -/

/-- Sites 117 and 208 with flags raised. -/
def flagged : State := { evening with flags := { raised := [(117, 0x0A), (208, 0x08)], mask := 0x08, attn := true } }

theorem witness_FlagRequestsChangeSetsAndMask :
    Ready flagged ∧ flagged.rosterEntry 1 = none ∧ flagged.rosterEntry 117 = some ⟨3, 41, 12⟩ ∧ (0x08 : Byte) ≠ 0 ∧
    flagged.storing = false ∧ (storing []).storing = true ∧ TablesCanonical flagged := by
  refine ⟨⟨rfl, rfl⟩, by decide, by decide, by decide, by decide, by decide, ?_⟩
  unfold TablesCanonical; decide +kernel

/-- The narrower mask of the example of chapter 9: CLEAR-FLAGS for site 0 with one flag, ATTN low, the other flag latched. -/
theorem test_clear_flags :
    (next (.clearFlags 1 0 0x08) flagged).raisedFlags 117 = 0x02 ∧ (next (.clearFlags 1 0 0x08) flagged).flags.attn = false ∧
    (next (.setFlagMask 1 0 0x02) flagged).flags.attn = true ∧
    reply (.clearFlags 1 117 0x02) flagged = some (.ok, [.total 1, .mark true, .byte 3, .flags 0x0A, .flags 0x08]) := by
  decide +kernel

/-- R168: the raised set and the ATTN level in SITE-STATUS. -/
theorem test_site_status_flags :
    (reply (.siteStatus 1 117) flagged).map (fun r => (r.2.getD 8 (.byte 0), r.2.getLast?)) = some (.flags 0x0A, some (.mark true)) ∧
    (reply (.siteStatus 1 117) evening).map (fun r => (r.2.getD 8 (.byte 0), r.2.getLast?)) = some (.flags 0, some (.mark false)) := by
  decide +kernel

/-- R173: the reply to a removal carries the level after it, low where the site's flags alone kept it high. -/
theorem test_removal_carries_attn :
    reply (.removeSite 1 117) flagged = some (.ok, [.byte 3, .byte 41, .byte 12, .mark true]) ∧
    (recomputeAttn (flagged.setRaisedFlags 208 0x02)).flags.attn = true ∧
    reply (.removeSite 1 117) (recomputeAttn (flagged.setRaisedFlags 208 0x02))
      = some (.ok, [.byte 3, .byte 41, .byte 12, .mark false]) := by decide +kernel

/-- SIGNAL-SITE with AUX, nothing in flight (R174). -/
theorem test_signal_site :
    reply (.signalSite 1 117 0x80) evening = some (.ok, [.flags 0, .flags 0x80, .flags 0, .mark false, .code 1]) := by decide

/-! ### The Floor Store: the interrupted floor of chapter 7 -/

/-- The window open, and the programmer at work on an entry of site 208 with the stored image given. -/
def programmingAt (stored : Image) (v : FloorValues) : State :=
  { evening with floors := { evening.floors with
      entries := Table.set FloorEntry.blank [] 208 { image := stored, commit := false, failure := false }
      windowOpen := true, windowCount := 3000, programmer := .floor 208 v } }

theorem witness_ProgrammingEndsInOneOutcome :
    (programmingAt 0 floor208).floors.programmer = .floor 208 floor208 ∧
    ((0 : Image) ||| (floor208.image &&& ~~~0) = floor208.image) ∧
    (({ floor208 with minimums := [250, 120, 100, 80] }.image ||| ({ floor208 with minimums := [250, 120, 90, 80] }.image &&& ~~~0))
      ≠ { floor208 with minimums := [250, 120, 90, 80] }.image) ∧
    (0 : Image) ||| (floor208.image &&& ~~~1) ≠ floor208.image + 2 ∧
    (programming evening .lock).floors.programmer = .lock ∧ evening.floors.programmer = .idle := by decide +kernel

/-- Each end while the other operation is under way, and either with none. -/
theorem test_other_programming_goes_on :
    (next (.floorProgrammingEnd 0 .takes true) (programming evening .lock)).floors = (programming evening .lock).floors ∧
    (next (.lockProgrammingEnd true) (programmingAt 0 floor208)).floors = (programmingAt 0 floor208).floors ∧
    (next (.lockProgrammingEnd true) evening).floors = evening.floors := by decide +kernel

/-- Steps 5 and 5' of the example: 90 over an image of 100 is a CONFLICT and the entry FAILED; the same values commit. -/
theorem test_floor_programming :
    ((next (.floorProgrammingEnd 0 .takes true) (programmingAt floor208.image { floor208 with minimums := [250, 120, 90, 80] })).floorEntry
        208).state = .failed ∧
    ((next (.floorProgrammingEnd 0 .takes true) (programmingAt 0x7C floor208)).floorEntry 208).state = .failed ∧
    ((next (.floorProgrammingEnd 0 .takes true) (programmingAt 0x04 floor208)).floorEntry 208).state = .committed ∧
    ((next (.floorProgrammingEnd 0 .takes true) (programmingAt 0x04 floor208)).link.inFlight)
      = some (.notice { kind := .floorDone, fields := [.site 208, .code 0, .code 2, .image floor208.image, .image floor208.image,
          .mark true] }) := by decide +kernel

/-- R133: a commit mark that reads programmed after its last attempt leaves a MARK-FAULT entry that reads COMMITTED; one that
never does, with the failure mark unprogrammed too, leaves it DIRTY. -/
theorem test_mark_faults :
    ((next (.floorProgrammingEnd 0 .late false) (programmingAt 0 floor208)).floorEntry 208).state = .committed ∧
    ((next (.floorProgrammingEnd 0 .late false) (programmingAt 0 floor208)).link.inFlight)
      = some (.notice { kind := .floorDone, fields := [.site 208, .code 3, .code 2, .image floor208.image, .image floor208.image,
          .mark true] }) ∧
    ((next (.floorProgrammingEnd 0 .never false) (programmingAt 0 floor208)).floorEntry 208).state = .dirty := by decide +kernel

/-- R142: a READ-FLOOR during programming shows a BLANK entry DIRTY once a bit of it is programmed. -/
theorem test_read_floor_while_programming :
    ((next (.readFloor 1 { site := 208, seen := { key := true, programmed := 0 } }) (programmingAt 0 floor208)).floorEntry 208).state
      = .blank ∧
    ((next (.readFloor 1 { site := 208, seen := { key := true, programmed := 0x04 } }) (programmingAt 0 floor208)).floorEntry 208)
      = { image := 0x04, commit := false, failure := false } ∧
    ((next (.floorProgrammingEnd 0 .takes true) (next (.readFloor 1 { site := 208, seen := { key := true, programmed := 0x04 } })
      (programmingAt 0 floor208))).floorEntry 208).state = .committed := by decide +kernel

/-- What a reset leaves of an entry under programming (R135, R130): BLANK, DIRTY, COMMITTED, and FAILED with both marks taken. -/
theorem test_programming_cut :
    ((next (.resetPinAssert noCut) (programmingAt 0 floor208)).floorEntry 208).state = .blank ∧
    ((next (.resetPinAssert { noCut with bits := 0x04 }) (programmingAt 0 floor208)).floorEntry 208).state = .dirty ∧
    ((next (.resetPinAssert { noCut with bits := ~~~0, commit := true }) (programmingAt 0 floor208)).floorEntry 208).state
      = .committed ∧
    ((next (.resetPinAssert { noCut with bits := ~~~0, commit := true, failure := true }) (programmingAt 0 floor208)).floorEntry 208)
      = { image := floor208.image, commit := true, failure := true } := by decide +kernel

/-- Each reset while the programmer is at work on an entry and on the lock, and the held part. -/
theorem witness_ResetsKeepTheRetainedDomain_cut :
    (programmingAt 0x04 floor208).floors.programmer = .floor 208 floor208 ∧ (programmingAt 0x04 floor208).startUp.phase ≠ .held ∧
    (programming evening .lock).floors.programmer = .lock ∧
    (let s := { restarting with floors := (programmingAt 0x04 floor208).floors }
     s.link.inFlight = some (.reply { tag := 1, kind := Kind.restart, status := .ok, fields := [] }) ∧
       (look Seen.nothing s).floors.programmer = .floor 208 floor208) ∧
    CutLeaves (programming evening .lock) { noCut with lock := true } [] true ∧
    CutLeaves (programmingAt 0 floor208) { noCut with bits := 0x04, commit := true }
      [(208, { image := 0x04, commit := false, failure := false })] false := by
  refine ⟨rfl, by decide, rfl, ⟨rfl, rfl⟩, ⟨?_, ?_, ?_⟩, ⟨?_, ?_, ?_⟩⟩
  · exact fun h => nomatch h
  · exact fun _ => ⟨rfl, rfl⟩
  · exact fun _ _ h => nomatch h
  · exact fun h => nomatch h
  · exact fun h => nomatch h
  · intro n v h
    have hv : Programmer.floor 208 floor208 = .floor n v := h
    cases hv
    refine ⟨rfl, fun k hk => ?_, _, rfl, by decide +kernel, by decide +kernel, by decide +kernel⟩
    simp only [Table.get, programmingAt, State.floorEntry, Table.set, if_neg hk.symm]
    rw [if_pos (by decide)]
    rfl

theorem test_lock_programming : (next (.lockProgrammingEnd true) (programming evening .lock)).floors.lockMark = true := by decide

/-- `evening` with the window at a count. -/
def windowAt (n : Nat) : State :=
  { evening with floors := { evening.floors with windowOpen := decide (n ≠ 0), windowCount := n } }

/-- `evening` with the lock in effect. -/
def locked : State := { evening with floors := { evening.floors with lockInEffect := true } }

theorem witness_WindowOpensByKeyAndCloses :
    (Ready evening ∧ evening.floors.lockInEffect = false) ∧ (Ready locked ∧ locked.floors.lockInEffect = true) ∧
    ((windowAt 1).floors.windowOpen = true ∧ (windowAt 1).floors.windowCount ≤ 1) ∧
    (2 ≤ (windowAt 2).floors.windowCount) ∧ evening.floors.windowOpen = false := by
  refine ⟨⟨⟨rfl, rfl⟩, rfl⟩, ⟨⟨rfl, rfl⟩, rfl⟩, ?_⟩; decide

/-- Step 1 of the example: CLOSED before, count 3,000 after; and R140, R141. -/
theorem test_open_commissioning :
    (next (.openCommissioning 1 true) evening).floors.windowCount = 3000 ∧
    (next .windowExpiry (windowAt 1)).floors.windowOpen = false ∧
    (next .commissionEnDeassert (windowAt 3000)).floors.windowCount = 0 ∧
    reply (.openCommissioning 1 true) evening = some (.notCommissioning, []) := by decide +kernel

theorem witness_CommissioningIsGuarded :
    (Ready locked ∧ locked.floors.lockInEffect = true) ∧ (Ready evening ∧ evening.floors.windowOpen = false) ∧
    (Ready (windowAt 1) ∧ (windowAt 1).floors.lockInEffect = false ∧ (windowAt 1).floors.windowOpen = true ∧
      (windowAt 1).floors.programmer = .idle ∧ (windowAt 1).floors.lockMark = false ∧
      ((windowAt 1).floorEntry 208).commit = false ∧ ((windowAt 1).floorEntry 208).failure = false) ∧
    [decide (4 = 0 ∨ 8 < 4), decide ([250, 120, 100, 80].length ≠ 4), [250, 120, 100, 80].any (fun f => decide (f < 20 ∨ 1200 < f)),
      decide (600 < 300 ∨ 2550 < 600), decide (1500 < 300 ∨ 2550 < 1500), decide (1500 < 600),
      decide (1500 < sumOf [250, 120, 100, 80])].findIdx? id = none ∧
    [decide (1 = 0 ∨ 8 < 1), decide ([19].length ≠ 1), [19].any (fun f => decide (f < 20 ∨ 1200 < f)),
      decide (300 < 300 ∨ 2550 < 300), decide (2551 < 300 ∨ 2550 < 2551), decide (2551 < 300), decide (2551 < sumOf [19])].findIdx? id
      = some 2 ∧
    (programmingAt 0 floor208).floors.programmer ≠ .idle ∧
    (({ windowAt 1 with floors := { (windowAt 1).floors with
        entries := [(208, { image := 0, commit := true, failure := false })], lockMark := true } } : State).floorEntry 208).commit = true := by
  refine ⟨⟨⟨rfl, rfl⟩, rfl⟩, ⟨⟨rfl, rfl⟩, rfl⟩, ⟨⟨rfl, rfl⟩, ?_⟩, ?_⟩ <;> decide

theorem test_commission_floor :
    reply (.commissionFloor 1 208 4 600 1500 [250, 120, 100, 80]) (windowAt 1) = some (.ok, [.site 208, .code 0]) ∧
    (next (.commissionFloor 1 208 4 600 1500 [250, 120, 100, 80]) (windowAt 1)).floors.programmer = .floor 208 floor208 ∧
    (reply (.commissionFloor 1 208 4 600 549 [250, 120, 100, 80]) (windowAt 1)).map (·.1) = some .outOfRange ∧
    (next (.lockFloors 1) (windowAt 1)).floors.programmer = .lock := by decide +kernel

/-- The image of a floor reads back as its values (R205). -/
theorem test_floor_image : Image.values floor208.image = floor208 := by decide +kernel

theorem test_read_floor :
    (reply (.readFloor 1 { site := 208, seen := Seen.nothing }) (programmingAt floor208.image floor208)).map (fun r => r.2.take 2) = some [.code 1, .mark true] := by
  decide +kernel

theorem witness_OneTimeStorageIsNeverErased :
    ∃ t, exec (.floorProgrammingEnd 0 .takes true) (programmingAt 0x04 floor208) = .next t := ⟨_, rfl⟩

theorem programmingAt_is_sound : Sound (programmingAt 0x04 floor208) := by
  refine ⟨by unfold TablesCanonical; decide +kernel, by unfold LinkWithin; decide, ?_, ?_⟩
  · intro n v h
    have hv : Programmer.floor 208 floor208 = .floor n v := h
    cases hv
    decide
  · unfold WindowFits; decide

theorem witness_CommittedFloorsNeverChange :
    (let s := { programmingAt 0x04 floor208 with floors := { (programmingAt 0x04 floor208).floors with
        programmer := .idle, entries := [(1, { image := 1, commit := true, failure := false }),
          (2, { image := 1, commit := false, failure := true })] } }
     Sound s ∧ (∃ t, exec .tick s = .next t) ∧ (s.floorEntry 1).state = .committed ∧ (s.floorEntry 2).state = .failed) := by
  refine ⟨⟨by unfold TablesCanonical; decide +kernel, by unfold LinkWithin; decide, (fun n v h => nomatch h), ?_⟩, ⟨_, rfl⟩,
    by decide, by decide⟩
  unfold WindowFits; decide

/-! ### Roster and lines -/

/-- Sites `first` to `first + k - 1` on a line at addresses from 1, in a group. -/
def block (first k line group : Nat) : Table (Option RosterEntry) :=
  (List.range k).map (fun i => (first + i, some { line := line, address := i + 1, group := group }))

/-- A part whose line 1 has 48 entries and whose group 9 has 48 members. -/
def crowded : State := { ready with roster := block 1 48 1 0 ++ block 101 40 2 9 ++ block 201 8 3 9 }

theorem witness_WriteSitePutsTheEntry :
    (Ready evening ∧ TablesCanonical evening ∧ evening.storing = false) ∧ (storing []).storing = true ∧
    ([decide (1 = 0 ∨ 384 < 1), decide (7 < 7), decide (255 = 0 ∨ 254 < 255), decide (64 < 65)].findIdx? id = some 2) ∧
    (117 ≠ 5 ∧ evening.rosterEntry 117 = some ⟨3, 41, 12⟩) ∧
    (Ready crowded ∧ 48 ≤ ((crowded.sitesOn 1).filter (· != 384)).length ∧ 9 ≠ 0 ∧
      48 ≤ ((crowded.membersOf 9).filter (· != 384)).length ∧ ((crowded.sitesOn 2).filter (· != 384)).length < 48 ∧
      ((crowded.sitesOn 1).filter (· != 48)).length < 48 ∧ ((crowded.membersOf 9).filter (· != 101)).length < 48) ∧
    (evening.rosterEntry 1 = none ∧ (⟨3, 42, 12⟩ : RosterEntry).line ≠ 7) := by
  refine ⟨⟨evening_is_ready, evening_is_canonical, rfl⟩, rfl, by decide, by decide, ⟨⟨rfl, rfl⟩, ?_⟩, by decide⟩
  decide +kernel

theorem test_write_site :
    reply (.writeSite 1 5 3 41 12) evening = some (.duplicate, [.site 117]) ∧
    (next (.writeSite 1 384 7 254 64) evening).rosterEntry 384 = some ⟨7, 254, 64⟩ ∧
    ((next (.writeSite 1 384 7 254 64) evening).group 64).members = 1 ∧
    ((next (.writeSite 1 384 7 254 64) evening).line 7).state = .down ∧
    reply (.writeSite 1 384 1 60 0) crowded = some (.noSpace, [.named 1]) := by decide +kernel

theorem witness_RemoveSiteForgetsTheSite :
    Ready evening ∧ evening.storing = false ∧ (storing []).storing = true ∧ evening.rosterEntry 384 = none ∧
    evening.rosterEntry 300 = some ⟨2, 41, 13⟩ := by
  refine ⟨evening_is_ready, ?_⟩; decide

/-- The last member of group 13 leaves: the group is EMPTY, its slot released and its resume record at plan 0. -/
theorem test_remove_site :
    reply (.removeSite 1 300) evening = some (.ok, [.byte 2, .byte 41, .byte 13, .mark false]) ∧
    ((next (.removeSite 1 300) evening).group 13).state = .empty ∧ ((next (.removeSite 1 300) evening).slot 6).refs = 0 := by
  decide +kernel

theorem witness_LinesAreControlledAndReported :
    Ready evening ∧ evening.storing = false ∧ (storing []).storing = true ∧
    [decide (1 < 1), decide (3 < 3), decide (200 < 5 ∨ 200 < 200), decide (3 < 3), decide (1 < 1), decide (1 < 2)].findIdx? id = some 5 ∧
    [decide (1 < 0), decide (3 < 3), decide (5 < 5 ∨ 200 < 5), decide (3 < 3), decide (1 < 1), decide (1 < 1)].findIdx? id = none ∧
    ((storedSettings { settings1 with enabled := 0 }).enabled = decide (0 = 1) ∧ (storedSettings settings1).bitRate.code = 2) ∧
    ((evening.line 3).settings.enabled = true ∧
      ((next (.lineControl 1 3 0 { settings1 with enabled := 0 }) evening).line 3).settings.enabled = false) := by
  refine ⟨evening_is_ready, ?_⟩; decide +kernel

/-- R165: site, address and count of the last fault, and the fault total, which the clear mark takes to none and 0. -/
theorem test_line_status :
    (let s := evening.setLine 3 { evening.line 3 with faultTotal := 9, lastFault := some ⟨.noReply, 117, 41, none, 7, 2⟩ }
     ((reply (.lineStatus 1 3 0) s).map (fun r => r.2.contains (.total 9) && r.2.contains (.site 117))) = some true ∧
     ((next (.lineStatus 1 3 1) s).line 3).lastFault = none ∧ ((next (.lineStatus 1 3 1) s).line 3).faultTotal = 0) := by
  decide +kernel

/-- The disabled line of the example of chapter 8: DISABLED, its sites OFFLINE, LINE_OK low. -/
theorem test_line_disabled :
    ((next (.lineControl 1 3 0 { settings1 with enabled := 0 }) (tracking tracker117 report601262)).line 3).state = .disabled ∧
    ((next (.lineControl 1 3 0 { settings1 with enabled := 0 }) (tracking tracker117 report601262)).tracker 117).state = .offline ∧
    lineOkPin (tracking tracker117 report601262) 3 = true ∧
    lineOkPin (next (.lineControl 1 3 0 { settings1 with enabled := 0 }) (tracking tracker117 report601262)) 3 = false := by
  decide +kernel

/-- `tracking` with order 17 in the slot and an exchange with site 117 in a phase, its miss count as given. -/
def exchanging (phase : ExchangePhase) (misses : Nat) : State :=
  { tracking tracker117 report601262 with
    handed := { stu := [], cm := [], fu := [] }
    links := [(117, { LinkRecord.reset with
      online := true, misses := misses, pendingOrder := some (nominal900 17), relay := 0x81, relayInFlight := 0x80 })]
    lines := [(3, { Line.reset with
      state := .active, round := some { remaining := [], formedEmpty := false }
      exchange := some { site := 117, address := 41, poll := [], bitRate := .r38400, timeout := 20, phase := phase, void := false } })] }

/-- A line at the start of a round, at the start of an empty one, and between rounds. -/
def polling : State :=
  { tracking tracker117 report601262 with lines :=
      [(3, { Line.reset with round := some { remaining := [117], formedEmpty := false } }),
       (4, { Line.reset with round := some { remaining := [], formedEmpty := true }, roundCounter := 7 })] }

theorem witness_ExchangeSendsWaitsAndCaptures :
    ((polling.line 3).exchange = none ∧ (polling.line 3).round = some { remaining := 117 :: [], formedEmpty := false }) ∧
    (polling.line 7).round = none ∧
    (∃ x, ((exchanging .sending 0).line 3).exchange = some x ∧ x.phase = .sending) ∧
    (∃ x, ((exchanging .waiting 0).line 3).exchange = some x ∧ x.phase = .waiting) ∧
    ((polling.line 4).exchange = none ∧ (polling.line 4).round = some { remaining := [], formedEmpty := true } ∧
      ({ remaining := [], formedEmpty := true } : Round).formedEmpty = true) := by
  exact ⟨by decide, by decide, ⟨_, rfl, rfl⟩, ⟨_, rfl, rfl⟩, by decide⟩

/-- Each way a line is not at the point of a command: no exchange, no round, no site left, no empty round, an exchange in another
phase. -/
theorem witness_ExchangeSendsWaitsAndCaptures_not_due :
    ((exchanging .waiting 0).line 3).exchange ≠ none ∧ (∃ r, (polling.line 4).round = some r ∧ r.remaining = []) ∧
    (∃ r, (polling.line 3).round = some r ∧ r.formedEmpty = false) ∧
    ((∀ x, (polling.line 3).exchange = some x → x.phase ≠ .waiting) ∧
      ∀ x, ((exchanging .sending 0).line 3).exchange = some x → x.phase ≠ .waiting) ∧
    ∀ x c, ((exchanging .waiting 0).line 3).exchange = some x → x.phase ≠ .receiving c := by
  refine ⟨by decide, ⟨_, rfl, rfl⟩, ⟨_, rfl, rfl⟩, ⟨(fun _ h => nomatch h), fun x h => ?_⟩, fun x c h => ?_⟩
  · cases h; decide
  · cases h; exact fun h => nomatch h

theorem test_exchange :
    (((next (.pollSend 3) polling).line 3).exchange.map (fun x => (x.address, x.phase))) = some (41, .sending) ∧
    dePin (next (.pollSend 3) polling) 3 = true ∧
    (((next (.pollSent 3) (exchanging .sending 0)).line 3).exchange.map (·.phase)) = some .waiting ∧
    (((next (.reportStartBit 3) (exchanging .waiting 0)).line 3).exchange.map (·.phase)) = some (.receiving 601262) ∧
    ((next (.emptyRoundEnd 4) polling).line 4).roundCounter = 0 := by decide +kernel

/-- Line 3 with sites 117, 208 and 300 at addresses 41, 42 and 7, of which 208 is OFFLINE, in a round of a counter. -/
def rounds (counter : Nat) (r : Round) (phase : Option ExchangePhase) : State :=
  { evening with
    roster := [(117, some ⟨3, 41, 12⟩), (208, some ⟨3, 42, 12⟩), (300, some ⟨3, 7, 13⟩)]
    links := [(117, { LinkRecord.reset with online := true, misses := 2 }), (300, { LinkRecord.reset with online := true })]
    lines := [(3, { Line.reset with
      state := .degraded, round := some r, roundCounter := counter
      exchange := phase.map (fun p =>
        { site := 117, address := 41, poll := [], bitRate := .r38400, timeout := 20, phase := p, void := false }) })] }

/-- An exchange that is the last of its round, one that is not, and an empty round, on a line that polls; and a line without entries. -/
theorem witness_ExchangeSendsWaitsAndCaptures_rounds :
    (∃ x r, ((rounds 7 ⟨[], false⟩ (some .waiting)).line 3).exchange = some x ∧
      ((rounds 7 ⟨[], false⟩ (some .waiting)).line 3).round = some r ∧ r.formedEmpty = false ∧ x.phase = .waiting ∧ r.remaining = []) ∧
    (∃ x r, ((rounds 0 ⟨[208], false⟩ (some (.receiving 9))).line 3).exchange = some x ∧
      ((rounds 0 ⟨[208], false⟩ (some (.receiving 9))).line 3).round = some r ∧ r.formedEmpty = false ∧ x.phase = .receiving 9 ∧
      r.remaining ≠ []) ∧
    (((rounds 0 ⟨[], true⟩ none).line 3).settings.enabled = true ∧ (rounds 0 ⟨[], true⟩ none).startUp.phase = .running ∧
      (rounds 0 ⟨[], true⟩ none).sitesOn 3 ≠ []) ∧
    polling.sitesOn 4 = [] := by
  exact ⟨⟨_, _, rfl, rfl, rfl, rfl, rfl⟩, ⟨_, _, rfl, rfl, rfl, rfl, by decide⟩, by decide, by decide⟩

/-- R153: round 0 polls 7, 41 and 42 in that order; rounds 1 to 7 leave out what is OFFLINE as they begin, site 117 too where the
third miss has just taken it; and a round with sites left goes on. -/
theorem test_rounds :
    ((next (.replyTimeout 3) (rounds 7 ⟨[], false⟩ (some .waiting))).line 3).round = some ⟨[300, 117, 208], false⟩ ∧
    ((next (.replyTimeout 3) (rounds 0 ⟨[], false⟩ (some .waiting))).line 3).round = some ⟨[300], false⟩ ∧
    ((next (.reportGapTimeout 3 []) (rounds 0 ⟨[208], false⟩ (some (.receiving 9)))).line 3).round = some ⟨[208], false⟩ ∧
    ((next (.emptyRoundEnd 3) (rounds 1 ⟨[], true⟩ none)).line 3).round = some ⟨[300, 117], false⟩ ∧
    ((next (.emptyRoundEnd 3) (rounds 1 ⟨[], true⟩ none)).line 3).roundCounter = 2 := by decide +kernel

/-- Roster edits of site 117 on line 3: with its exchange in flight and other sites left to poll; with nothing else left and no
exchange; with an empty round; as the one entry of the line; and with no round; the line it goes to enabled or disabled. -/
theorem witness_roster_edits_on_lines :
    (∀ s ∈ [rounds 0 ⟨[208, 117], false⟩ (some .waiting), rounds 0 ⟨[117], false⟩ none, rounds 1 ⟨[], true⟩ none,
        exchanging .waiting 0, tracking tracker117 report601262],
      Ready s ∧ TablesCanonical s ∧ s.rosterEntry 117 = some ⟨3, 41, 12⟩ ∧ s.storing = false ∧
      (∀ l a, (l = 2 ∨ l = 3) → a = 60 → WriteSiteFits s 117 l a 12 ∧ WriteSiteFits s 117 l a 0) ∧ WriteSiteFits s 117 3 41 0) ∧
    (((rounds 0 ⟨[117], false⟩ none).line 3).exchange = none ∧ [117].filter (· != 117) = [] ∧
      (rounds 0 ⟨[117], false⟩ none).sitesOn 3 ≠ [117]) ∧
    ((exchanging .waiting 0).sitesOn 3 = [117] ∧ ((exchanging .waiting 0).line 3).round.isSome = true) ∧
    (((tracking tracker117 report601262).line 3).round = none ∧ ((tracking tracker117 report601262).line 2).settings.enabled = true ∧
      ((next (.lineControl 1 2 0 { settings1 with enabled := 0 }) (tracking tracker117 report601262)).line 2).settings.enabled = false) := by
  refine ⟨?_, by decide, by decide, by decide, by decide, by decide +kernel⟩
  intro s hs
  simp only [List.mem_cons, List.not_mem_nil, or_false] at hs
  rcases hs with rfl | rfl | rfl | rfl | rfl
  all_goals
    refine ⟨⟨rfl, rfl⟩, by unfold TablesCanonical; decide +kernel, by decide, rfl, ?_,
      site_fits _ _ _ _ _ (by decide +kernel) rfl (by decide +kernel)⟩
    rintro l a (rfl | rfl) rfl <;> exact ⟨site_fits _ _ _ _ _ (by decide +kernel) rfl (by decide +kernel),
      site_fits _ _ _ _ _ (by decide +kernel) rfl (by decide +kernel)⟩

/-- Changes of group alone: an OFFLINE site; a coordinated one that becomes FREE, its newest order FREE or not; and one whose new
group, 12, gives it a slot. -/
theorem witness_WriteSitePutsTheEntry_groups :
    (∀ t ∈ [tracker117, { tracker117 with state := .offline }, { tracker117 with ring := [free16] }],
      WriteSiteFits (tracking t report601262) 117 3 41 0 ∧ (tracking t report601262).rosterEntry 117 = some ⟨3, 41, 12⟩) ∧
    (WriteSiteFits (unassigned { tracker117 with state := .free } report601262) 117 3 41 12 ∧
      (unassigned { tracker117 with state := .free } report601262).rosterEntry 117 = some ⟨3, 41, 0⟩) := by
  refine ⟨?_, site_fits _ _ _ _ _ (by decide +kernel) rfl (by decide +kernel), by decide⟩
  intro t ht
  simp only [List.mem_cons, List.not_mem_nil, or_false] at ht
  rcases ht with rfl | rfl | rfl <;> exact ⟨site_fits _ _ _ _ _ (by decide +kernel) rfl (by decide +kernel), by decide⟩

/-- R105: SEEKING becomes FREE with order 17 FREEING and SITE-STATE in group 0 with cause ROSTER (6); OFFLINE stays; and a move
clears zero, baseline and anchor and keeps the ring. -/
theorem test_group_change :
    (let t := next (.writeSite 1 117 3 41 0) (tracking { tracker117 with previous := some .free } report601262)
     (t.tracker 117).state = .free ∧ (t.tracker 117).previous = none ∧ (t.tracker 117).anchor = false ∧
     (t.linkOf 117).pendingOrder.map (fun o => (o.sequence, o.kind, o.cause)) = some (17, .free, .freeing) ∧
     raised t = [(.siteState, [.site 117, .byte 0, .code 3, .code 1, .code 6, .count 601262, .mark false])]) ∧
    ((next (.writeSite 1 117 3 41 0) (tracking { tracker117 with state := .offline } report601262)).tracker 117).state = .offline ∧
    (let t := next (.writeSite 1 117 2 60 12) (tracking tracker117 report601262)
     (t.tracker 117).lastZero = none ∧ (t.tracker 117).baseline = none ∧ (t.tracker 117).anchor = false ∧
     (t.tracker 117).ring = tracker117.ring ∧ (t.tracker 117).nextSequence = 17) := by decide +kernel

/-- R153, R154: a site that goes to line 2 leaves its exchange void and line 3 IDLE without a round, and line 2 begins one; and the
round of a line that keeps other sites goes on without it, or is followed by the next. -/
theorem test_roster_edits_on_lines :
    (let t := next (.writeSite 1 117 2 60 12) (exchanging .waiting 0)
     (t.line 3).exchange.map (·.void) = some true ∧ (t.line 3).round = none ∧ (t.line 3).state = .idle ∧ (t.line 3).roundCounter = 1 ∧
     (t.line 2).round = some ⟨[117], false⟩ ∧
     raised t = [(.siteState, [.site 117, .byte 12, .code 3, .code 0, .code 6, .count 601262, .mark false]),
       (.lineState, [.byte 3, .code 2, .code 1, .byte 0, .byte 0, .byte 3, .site 117, .count 601262]),
       (.lineState, [.byte 2, .code 1, .code 4, .byte 1, .byte 0, .byte 3, .site 117, .count 601262])]) ∧
    ((next (.removeSite 1 117) (rounds 0 ⟨[208, 117], false⟩ (some .waiting))).line 3).round = some ⟨[208], false⟩ ∧
    ((next (.removeSite 1 117) (rounds 0 ⟨[117], false⟩ none)).line 3).round = some ⟨[300], false⟩ ∧
    ((next (.removeSite 1 117) (rounds 0 ⟨[117], false⟩ none)).line 3).roundCounter = 1 := by decide +kernel

/-- R152, R163: a line that is disabled and enabled again, DISABLED and then DOWN. -/
theorem test_line_states :
    (let s := next (.lineControl 1 3 0 { settings1 with enabled := 0 }) (tracking tracker117 report601262)
     raised (next (.lineControl 1 3 0 settings1) s)
      = [(.siteState, [.site 117, .byte 12, .code 3, .code 0, .code 2, .count 601262, .mark false]),
         (.lineState, [.byte 3, .code 2, .code 0, .byte 1, .byte 0, .byte 2, .site 0, .count 601262]),
         (.lineState, [.byte 3, .code 0, .code 4, .byte 1, .byte 0, .byte 2, .site 0, .count 601262])]) := by decide +kernel

/-- The bytes of a report of an address: counter 44, elapsed 30, running and held sequence 17, flags and acknowledged relay flags
as given, then the check. -/
def reportBytes (address flags ack : Byte) : List Byte :=
  let covered : List Byte := [address, 0x52, 44, 30, 0, 3, 17, 17, flags, ack]
  0x7E :: (covered ++ leBytes 2 (crc16 covered).toNat)

/-- The good report of 603,700 in the example of chapter 8. -/
def report603700 : Report :=
  { captured := 603700, cycleCounter := 44, elapsed := 30, running := some 17, held := some 17, flags := 0, relayAck := 0xFF }

theorem witness_MissesCountAndTakeOffline :
    (∃ x, ((exchanging .waiting 2).line 3).exchange = some x ∧ x.phase = .waiting ∧ x.void = false ∧
      ((exchanging .waiting 2).linkOf x.site).online = true ∧ 2 ≤ ((exchanging .waiting 2).linkOf x.site).misses ∧
      ((exchanging .waiting 1).linkOf x.site).misses < 2) ∧
    (∃ x, ((exchanging (.receiving 7) 0).line 3).exchange = some x ∧ x.phase = .receiving 7 ∧
      (List.replicate 12 (0 : Byte)).length < 13 ∧ 13 ≤ (reportBytes 42 0 0).length ∧
      ¬ ReportIntact (List.replicate 13 0) ∧ ReportIntact (reportBytes 42 0 0) ∧ ((reportBytes 42 0 0).getD 1 0).toNat ≠ x.address) ∧
    (∃ x : Exchange, x.void = true) := by
  refine ⟨⟨_, rfl, rfl, rfl, rfl, by decide, by decide⟩,
    ⟨_, rfl, rfl, by decide, by decide, by unfold ReportIntact; decide +kernel, by unfold ReportIntact; decide +kernel, by decide⟩,
    ⟨0, 0, [], .r9600, 5, .sending, true⟩, rfl⟩

/-- The third miss of the example of chapter 8: OFFLINE with order 17 kept, the line DOWN (its one site is lost), the fault
record at miss count 3. -/
theorem test_third_miss :
    ((next (.replyTimeout 3) (exchanging .waiting 2)).linkOf 117).online = false ∧
    ((next (.replyTimeout 3) (exchanging .waiting 2)).linkOf 117).pendingOrder = some (nominal900 17) ∧
    ((next (.replyTimeout 3) (exchanging .waiting 2)).tracker 117).state = .offline ∧
    ((next (.replyTimeout 3) (exchanging .waiting 2)).line 3).state = .down ∧
    ((next (.replyTimeout 3) (exchanging .waiting 2)).line 3).lastFault.map (fun f => (f.outcome, f.count, f.misses))
      = some (.noReply, 601262, 3) ∧
    raised (next (.replyTimeout 3) (exchanging .waiting 2))
      = [(.siteState, [.site 117, .byte 12, .code 3, .code 0, .code 1, .count 601262, .mark false]),
         (.lineState, [.byte 3, .code 2, .code 4, .byte 1, .byte 0, .byte 3, .site 117, .count 601262])] := by decide +kernel

theorem test_bad_reports :
    ((next (.reportGapTimeout 3 [0x7E]) (exchanging (.receiving 7) 0)).linkOf 117).lastOutcome = some .truncated ∧
    ((next (.reportReceived 3 (reportBytes 42 0 0)) (exchanging (.receiving 7) 0)).line 3).lastFault.bind (·.source) = some 42 := by
  decide +kernel

/-- Site 117 OFFLINE on line 3, which is DOWN, as its good report comes in. -/
def returning : State :=
  let s := exchanging (.receiving 603700) 3
  (s.setLinkOf 117 { s.linkOf 117 with online := false }).setLine 3 { s.line 3 with state := .down }

theorem witness_GoodReportIsHandedOn :
    (∃ x, ((exchanging (.receiving 603700) 2).line 3).exchange = some x ∧ x.phase = .receiving 603700 ∧ x.void = false ∧
      13 ≤ (reportBytes 41 0 0xFF).length ∧ ReportIntact (reportBytes 41 0 0xFF) ∧
      ((reportBytes 41 0 0xFF).getD 1 0).toNat = x.address ∧ report603700 = reportOf 603700 (reportBytes 41 0 0xFF)) ∧
    (report603700.flags &&& 7 = 0 ∧ ∀ e ∈ (exchanging (.receiving 603700) 2).handed.cm, e.1 = 117 → e.2.flags &&& 7 = 0) ∧
    preempted.flags &&& 7 ≠ 0 ∧
    ((exchanging (.receiving 603700) 2).linkOf 117).pendingOrder = some (nominal900 17) ∧
    report603700.held = some (nominal900 17).sequence ∧ report603700.held ≠ some (nominal900 18).sequence ∧
    (evening.linkOf 117).pendingOrder = none ∧
    (((exchanging (.receiving 603700) 2).linkOf 117).online = true ∧ (returning.linkOf 117).online = false ∧
      (returning.line 3).exchange = ((exchanging (.receiving 603700) 2).line 3).exchange) := by
  refine ⟨⟨_, rfl, rfl, rfl, by decide, by unfold ReportIntact; decide +kernel, by decide, by decide +kernel⟩, ?_⟩; decide

theorem test_good_report :
    ((next (.reportReceived 3 (reportBytes 41 0 0xFF)) (exchanging (.receiving 603700) 2)).linkOf 117).pendingOrder = none ∧
    ((next (.reportReceived 3 (reportBytes 41 0 0xFF)) (exchanging (.receiving 603700) 2)).linkOf 117).relay = 0x01 ∧
    (next (.reportReceived 3 (reportBytes 41 0 0xFF)) (exchanging (.receiving 603700) 2)).handed.fu = [(117, report603700)] ∧
    ((next (.reportReceived 3 (reportBytes 41 0 0xFF)) (exchanging (.receiving 603700) 2)).line 3).roundCounter = 1 ∧
    raised (next (.reportReceived 3 (reportBytes 41 0 0xFF)) returning)
      = [(.lineState, [.byte 3, .code 4, .code 2, .byte 1, .byte 1, .byte 3, .site 117, .count 601262])] := by
  decide +kernel

/-! ### The Nonvolatile Store -/

theorem witness_StoreWritesSectionsInOrder :
    (Ready evening ∧ evening.store.operation = none) ∧ (Ready (storing []) ∧ (storing []).store.operation ≠ none) ∧
    (∀ k ≤ 4, (storing (List.replicate k (true, 0))).store.operation
      = some { accepted := 7, finished := List.replicate k (true, 0) } ∧ (List.replicate k (true, 0)).length = k) ∧
    (∃ check : List Byte → List Byte, ∀ b, check b = if false then leBytes 4 (crc32 b).toNat else []) :=
  ⟨⟨evening_is_ready, rfl⟩, ⟨storing_is_ready _, by decide⟩, fun _ _ => ⟨rfl, by simp⟩, ⟨fun _ => [], fun _ => rfl⟩⟩

/-- With no store operation under way, neither step does anything. -/
theorem test_store_idle :
    (next (.storeSectionWritten true) evening).store = evening.store ∧ (next .storeEnd evening).store = evening.store := by
  decide +kernel

/-- The sections in the order of Table 11-1; a section that does not read back has no check. -/
theorem test_store_sections :
    (next (.storeTables 1) evening).store.operation = some { accepted := 500000, finished := [] } ∧
    (next (.storeSectionWritten true) (storing [])).store.roster
      = { content := rosterContent evening, check := leBytes 4 (crc32 (rosterContent evening)).toNat } ∧
    (next (.storeSectionWritten false) (storing [(true, 3)])).store.settings.check = [] ∧
    ((next (.storeSectionWritten true) (storing [(true, 3), (false, 8)])).store.operation.map (·.finished))
      = some [(true, 3), (false, 8), (true, 4)] ∧
    (next .storeEnd (storing (List.replicate 4 (true, 0)))).store.operation = none := by decide +kernel

/-- A calendar entry at the ends of its ranges. -/
def entry128 : EventEntry :=
  { firstDay := 65535, lastDay := 65535, weekdays := 0x7F, groups := [64, 1], action := .plan 250 1439 1440, priority := 15
    notify := false, sequence := 4294967295 }

/-- `evening` with a plan at the top of every range in slot 95, and calendar entry 128. -/
def storable : State :=
  { evening with
    library := { evening.library with slots := evening.library.slots ++ [(95,
      { posted 250 64 2550 0 384 [2550, 1] with
        header := some { plan := 250, group := 64, cycle := 2550, mode := .lengthen, shorten := 30, lengthen := 50, window := 100,
                         cohortKey := 255, count := 1 }
        entries := [(0, some { site := 384, offset := 2549, splits := [2550, 1], modeOverride := some .shorten })] })] }
    resolver := { evening.resolver with events := evening.resolver.events ++ [(128, some entry128)] } }

theorem storable_timetables : TimetablesInRange storable := by
  refine ⟨?_, ?_, by decide +kernel, ?_⟩
  · intro p _ h2
    have : ∀ p ∈ List.range 65, (storable.program p).length ≤ 24 ∧ ((storable.program p).map (·.start)).Pairwise (· < ·)
      ∧ ∀ e ∈ storable.program p, e.start ≤ 1439 ∧ e.plan ≤ 250 := by decide +kernel
    exact this p (List.mem_range.2 (by omega))
  · intro g _ h2
    have : ∀ g ∈ List.range 65, (storable.week g).length = 7 ∧ ∀ p ∈ storable.week g, p ≤ 64 := by decide +kernel
    exact this g (List.mem_range.2 (by omega))
  · intro id e h
    have hm : (id, some e) ∈ [(7, some entry7), (31, some entry31), (32, some entry32), (128, some entry128)] :=
      mem_of_get _ _ _ h
    simp only [List.mem_cons, List.not_mem_nil, or_false, Prod.mk.injEq, Option.some.injEq] at hm
    rcases hm with ⟨rfl, rfl⟩ | ⟨rfl, rfl⟩ | ⟨rfl, rfl⟩ | ⟨rfl, rfl⟩
    all_goals exact ⟨by decide, by decide, by decide, by decide, by decide, by decide, by decide, by decide, by decide,
      (by rintro _ _ _ ⟨⟩ <;> decide), (by rintro _ ⟨⟩ <;> decide), by decide, by decide, by decide, by decide⟩

theorem witness_StoredSectionsLoadBack :
    (Table.wf none evening.roster = true ∧ rosterFits (rosterEntries evening) = true ∧
      rosterFits (rosterEntries crowded) = true) ∧
    ((∀ l, l < 8 → 5 ≤ (evening.line l).settings.timeout ∧ (evening.line l).settings.timeout ≤ 200 ∧
        (evening.line l).settings.mode ≤ 3) ∧
      1 ≤ evening.monitor.tolerance ∧ evening.monitor.tolerance ≤ 50 ∧ evening.monitor.limitCode ≤ 7) ∧
    ((∀ n ∈ slotsInState storable .posted, PlanInRange (storable.slot n)) ∧
      ∀ n ∈ slotsInState storable .posted, ∀ k ∈ slotsInState storable .posted, planOfSlot storable n = planOfSlot storable k → n = k) ∧
    TimetablesInRange storable := by
  refine ⟨by decide +kernel, by decide +kernel, ⟨?_, by decide +kernel⟩, storable_timetables⟩
  intro n hn
  have h : n ∈ [5, 6, 17, 21, 95] := by
    have : slotsInState storable .posted = [5, 6, 17, 21, 95] := by decide +kernel
    rwa [this] at hn
  simp only [List.mem_cons, List.not_mem_nil, or_false] at h
  rcases h with rfl | rfl | rfl | rfl | rfl <;> exact ⟨_, rfl, by decide⟩

/-- 12.8: what the plans section of `storable` holds comes back. -/
theorem test_plans_load_back :
    (parsePlans (plansContent storable)).map (fun ps => ps.map (fun p => (p.slot, p.header.plan)))
      = some [(5, 23), (6, 25), (17, 41), (21, 42), (95, 250)] := by decide +kernel

/-- 12.8: so do the calendar entries of its timetables section. -/
theorem test_timetables_load_back :
    (parseTimetables (timetablesContent storable)).map (fun v => v.events.map (fun e => (e.event.id, e.sequence)))
      = some [(7, 118), (31, 140), (32, 141), (128, 4294967295)] := by decide +kernel

/-! ### The planning link -/

theorem witness_FrameBytesArriveAsAFrame :
    ready.startUp.phase ≠ .held ∧ ready.link.framer = .hunt ∧ ([] : List Byte).length ≤ 1024 ∧
    (List.replicate 1024 (0 : Byte)).length ≤ 1024 := by decide +kernel

/-- A part whose link has requests and refusals waiting. -/
def waiting (queued refused : Nat) : State :=
  { ready with link := { ready.link with
      queue := List.replicate queued { kind := 0x11, tag := 2, body := [], arrived := 0 }
      refusals := List.replicate refused (0x19, 6)
      replySlot := some { tag := 1, kind := 0x37, status := .ok, fields := [] }
      notices := List.replicate 62 { kind := .siteState, fields := [] }
      inFlight := some (.notice { kind := .siteState, fields := [] }) } }

/-- Steps 1 and 4 of the example of chapter 10: a frame received byte by byte is served at once; a fifth waiting request goes on
the refusal list; and when the notice ends QUEUE-FULL goes before the reply. -/
theorem test_burst :
    ((linkFrame 0x11 7 []).foldl (fun s b => next (.planningLinkByte { value := b, framingError := false } Seen.nothing) s) (waiting 0 0)).link.queue.length = 1 ∧
    ((linkFrame 0x19 6 [117, 0]).foldl (fun s b => next (.planningLinkByte { value := b, framingError := false } Seen.nothing) s) (waiting 4 0)).link.refusals = [(0x19, 6)] ∧
    (next (.frameTransmitEnd quietEnd) (waiting 4 1)).link.inFlight = some (.queueFull 0x19 6) ∧
    (next (.frameTransmitEnd quietEnd) (waiting 4 1)).link.refusals = [] := by decide +kernel

/-- The corrupted frame of the example's variant: 7 bytes, reason CRC (code 3), body length 0, kind STATUS, tag 3. -/
theorem test_corrupted_frame :
    ([0xA5, 0, 0, 2, 3, 0, 0].foldl (fun s b => next (.planningLinkByte { value := b, framingError := false } Seen.nothing) s) (waiting 4 0)).link.notices.getLast?
      = some { kind := .frameRejected, fields := [.code 3, .total 7, .byte 15, .total 0, .byte 2, .byte 3, .count 0] } ∧
    ([0xA5, 0, 0, 2, 3, 0, 0].foldl (fun s b => next (.planningLinkByte { value := b, framingError := false } Seen.nothing) s) (waiting 4 0)).link.rejectedTotal = 1 := by
  decide +kernel

theorem witness_FramesAreQueuedRefusedOrRejected :
    (ready.startUp.phase ≠ .held ∧ ready.link.framer = .hunt ∧ (0xA5 : Byte) = 0xA5 ∧ (0xA4 : Byte) ≠ 0xA5) ∧
    ((next (.planningLinkByte { value := 0xA5, framingError := false } Seen.nothing) ready).link.framer ≠ .hunt ∧
      (next (.planningLinkByte { value := 0xA5, framingError := false } Seen.nothing) ready).startUp.phase ≠ .held) ∧
    (next (.resetPinAssert noCut) ready).startUp.phase = .held ∧
    ((ready.setFramer (.length (some 1))).link.framer = .length (some 1) ∧ 1024 < (1 : Byte).toNat + 256 * (4 : Byte).toNat) ∧
    ((ready.setFramer (.check 0 0x11 7 [] (some 0))).link.framer = .check 0 0x11 7 [] (some 0) ∧
      (0 : Byte).toNat + 256 * (0 : Byte).toNat ≠ (crc16 (leBytes 2 0 ++ [0x11, 7] ++ [])).toNat) ∧
    (ready.startUp.phase ≠ .held ∧ unknownKindByte 0x04 = true ∧ canServe ready.link = true) ∧
    (canServe (waiting 3 0).link = false ∧ (waiting 3 0).link.queue.length < 4) ∧
    (4 ≤ (waiting 4 3).link.queue.length ∧ (waiting 4 3).link.refusals.length < 4) ∧
    (4 ≤ (waiting 4 4).link.queue.length ∧ 4 ≤ (waiting 4 4).link.refusals.length) := by decide +kernel

/-- A frame of kind GET-TIME whose body holds a byte too many, but for the last byte of its check. -/
def overlong : State := ready.setFramer (.check 1 0x11 7 [0] (some 0x99))

/-- Bodies of no allowed length: one byte too many, one too few, and a count that calls for more or fewer items. -/
theorem witness_FramesAreQueuedRefusedOrRejected_lengths :
    (overlong.startUp.phase ≠ .held ∧ canServe overlong.link = true ∧
      overlong.link.framer = .check 1 0x11 7 [0] (some 0x99) ∧
      (0x99 : Byte).toNat + 256 * (0x56 : Byte).toNat = (crc16 (leBytes 2 1 ++ [0x11, 7] ++ [0])).toNat) ∧
    (BadLength 0x11 [0] ∧ BadLength 0x10 [0, 0, 0, 0, 0] ∧ BadLength 0x36 []) ∧
    (BadLength 0x38 [2, 12] ∧ BadLength 0x38 [1, 12, 13] ∧ BadLength 0x22 ([0, 0, 8] ++ List.replicate 175 0)) := by
  refine ⟨by decide +kernel, ⟨⟨0, 0, 0, by decide, by decide⟩, ⟨6, 0, 0, by decide, by decide⟩, ⟨1, 0, 0, by decide, by decide⟩⟩,
    ⟨1, 0, 1, by decide, by decide⟩, ⟨1, 0, 1, by decide, by decide⟩, ⟨3, 2, 22, by decide, by decide +kernel⟩⟩

/-- R182: BAD-LENGTH, as the frame comes and from the queue. -/
theorem test_bad_length :
    (next (.planningLinkByte { value := 0x56, framingError := false } Seen.nothing) overlong).link.inFlight
      = some (.reply { tag := 7, kind := 0x11, status := .badLength, fields := [] }) ∧
    (next (.frameTransmitEnd quietEnd) { waiting 0 0 with link := { (waiting 0 0).link with
      queue := [{ kind := 0x38, tag := 9, body := [2, 12], arrived := 0 }] } }).link.replySlot
      = some { tag := 9, kind := 0x38, status := .badLength, fields := [] } := by decide +kernel

/-- A part that waits for the last byte of the check of a GET-TIME frame. -/
def lastByte (s : State) : State := s.setFramer (.check 0 0x11 7 [] (some (((crc16 [0, 0, 0x11, 7]).toNat % 256 : Nat))))

theorem witness_FramesAreQueuedRefusedOrRejected_requests :
    (encodeRequest (.getTime 7) = some (0x11, 7, []) ∧ decodeRequest Seen.nothing 0x11 7 [] = .request (.getTime 7)) ∧
    ((lastByte ready).startUp.phase = .running ∧ canServe (lastByte ready).link = true ∧
      canServe (lastByte State.reset).link = true ∧ (lastByte State.reset).startUp.phase ≠ .held ∧
      (lastByte State.reset).startUp.phase ≠ .running ∧ (0x11 : Byte) ≠ Kind.identify ∧ (0x11 : Byte) ≠ Kind.status) ∧
    (∀ q ∈ [(3, 0), (4, 3), (4, 4)], canServe (lastByte (waiting q.1 q.2)).link = false ∧
      (lastByte (waiting q.1 q.2)).startUp.phase ≠ .held) ∧
    (((crc16 [0, 0, 0x11, 7]).toNat % 256 : Nat) : Byte).toNat + 256 * (((crc16 [0, 0, 0x11, 7]).toNat / 256 : Nat) : Byte).toNat
      = (crc16 (leBytes 2 0 ++ [0x11, 7] ++ [])).toNat := by decide +kernel

/-- R181, R182: a known request by its command or by its last byte, served, BUSY while LOADING, queued, refused, and rejected. -/
theorem test_known_requests_arrive :
    (∀ c ∈ [(.getTime 7 : Instr), .planningLinkByte
        { value := (((crc16 [0, 0, 0x11, 7]).toNat / 256 : Nat) : Byte), framingError := false } Seen.nothing],
      ((next c (lastByte ready)).link.inFlight.map (fun f => match f with | .reply r => (r.tag, r.status) | _ => (0, .busy)))
        = some (7, .ok) ∧
      ((next c (lastByte State.reset)).link.inFlight.map (fun f => match f with | .reply r => (r.tag, r.status) | _ => (0, .ok)))
        = some (7, .busy) ∧
      (next c (lastByte (waiting 3 0))).link.queue.map (fun r => (r.kind, r.tag)) = [(0x11, 2), (0x11, 2), (0x11, 2), (0x11, 7)] ∧
      (next c (lastByte (waiting 4 3))).link.refusals.getLast? = some (0x11, 7) ∧
      (next c (lastByte (waiting 4 4))).link.rejectedTotal = 1) := by decide +kernel

/-- R180: a body length of 1025 and a wrong check are rejected with the reasons LENGTH (2) and CRC (3). -/
theorem test_length_and_crc_rejections :
    ((next (.planningLinkByte { value := 4, framingError := false } Seen.nothing) (ready.setFramer (.length (some 1)))).link.inFlight.map
      (fun f => match f with | .notice n => n.fields.take 1 | _ => [])) = some [.code 2] ∧
    ((next (.planningLinkByte { value := 0, framingError := false } Seen.nothing)
      (ready.setFramer (.check 0 0x11 7 [] (some 0)))).link.inFlight.map
      (fun f => match f with | .notice n => n.fields.take 1 | _ => [])) = some [.code 3] := by decide +kernel

theorem test_link_rejections :
    (next .frameGapTimeout (next (.planningLinkByte { value := 0xA5, framingError := false } Seen.nothing) ready)).link.rejectedTotal = 1 ∧
    (next (.unknownKind 6 0x04 []) (waiting 4 4)).link.rejectedTotal = 1 ∧
    (next (.unknownKind 6 0x04 []) ready).link.inFlight
      = some (.reply { tag := 6, kind := 0x04, status := .unknownKind, fields := [] }) := by decide +kernel

/-- A notice is in flight, no request waits, and the reply slot, the notices and the lost mark are as given. -/
def sending (r : Option Reply) (notices : List Notice) (lost : Bool) : State :=
  { ready with link := { ready.link with
      inFlight := some (.notice { kind := .siteState, fields := [] }), replySlot := r, notices := notices, lostMark := lost
      lostCount := if lost then 1 else 0, firstLost := if lost then some (.siteState, 500000) else none } }

theorem witness_ArbiterPrefersRefusalsThenReplies :
    ((sending none [] false).link.inFlight = some (.notice { kind := .siteState, fields := [] }) ∧
      isRestartReply (.notice { kind := .siteState, fields := [] }) = false ∧ (sending none [] false).startUp.phase ≠ .held ∧
      (sending none [] false).link.queue = []) ∧
    ((waiting 0 1).link.queue = [] ∧ (waiting 0 1).link.refusals = (0x19, 6) :: [] ∧ (waiting 2 1).link.replySlot ≠ none) ∧
    ((waiting 2 0).link.refusals = [] ∧ (waiting 2 0).link.replySlot.isSome = true ∧ (waiting 2 0).link.stopped = false ∧
      (waiting 2 0).link.queue = { kind := 0x11, tag := 2, body := [], arrived := 0 } ::
        [{ kind := 0x11, tag := 2, body := [], arrived := 0 }] ∧
      decodeRequest Seen.nothing 0x11 2 [] = .request (.getTime 2) ∧ (waiting 2 0).startUp.phase = .running ∧
      unknownKindByte 0x04 = true ∧ bodyLengths.contains (0x11, 0, 0, 0) = true) ∧
    ((sending none [] false).link.refusals = [] ∧ (sending none [] false).link.replySlot = none ∧
      (sending none [] false).link.notices = []) ∧
    (sending (some { tag := 1, kind := 0x37, status := .ok, fields := [] }) [] false).link.replySlot
      = some { tag := 1, kind := 0x37, status := .ok, fields := [] } ∧
    ((sending none [{ kind := .watch, fields := [] }] true).link.notices = { kind := .watch, fields := [] } :: [] ∧
      (sending none [{ kind := .watch, fields := [] }] true).link.lostMark = true ∧
      (sending none [{ kind := .watch, fields := [] }] true).link.firstLost = some (.siteState, 500000)) ∧
    (sending none [{ kind := .watch, fields := [] }] false).link.lostMark = false := by decide

/-- Step 10 of the example: the place that the oldest notice leaves goes to NOTICES-LOST, lost count 1, first kind SITE-STATE
(0xCC by Tables 10-5 and 12-4). -/
theorem test_notices_lost :
    (next (.frameTransmitEnd quietEnd) (sending none [{ kind := .watch, fields := [] }] true)).link.notices
      = [{ kind := .noticesLost, fields := [.total 1, .code 0xCC, .count 500000] }] ∧
    (next (.frameTransmitEnd quietEnd) (sending none [{ kind := .watch, fields := [] }] true)).link.lostMark = false := by
  decide +kernel

/-- A part with so many notices queued, and the mark and count of those lost as given. -/
def noticed (k : Nat) (lost : Bool) (count : Nat) : State :=
  { ready with link := { ready.link with
      notices := List.replicate k { kind := .watch, fields := [] }, lostMark := lost, lostCount := count
      firstLost := if lost then some (.siteState, 500000) else none } }

theorem witness_ArbiterPrefersRefusalsThenReplies_notices :
    (noticed 63 false 0).link.notices.length < 64 ∧ 64 ≤ (noticed 64 false 0).link.notices.length ∧
    (noticed 64 false 0).link.lostMark = false ∧ (noticed 64 true 65535).link.lostMark = true := by decide

/-- R187, R188: the 64th notice joins; the next is dropped, first of the lost; and the count holds at 65535. -/
theorem test_notice_drop :
    (raise .siteHeld [] (noticed 63 false 0)).link.notices.getLast? = some { kind := .siteHeld, fields := [] } ∧
    ((raise .siteHeld [] (noticed 63 false 0)).link.notices.length, (raise .siteHeld [] (noticed 64 false 0)).link.notices.length)
      = (64, 64) ∧
    (let l := (raise .siteHeld [] (noticed 64 false 0)).link
     (l.lostMark, l.lostCount, l.firstLost) = (true, 1, some (.siteHeld, 0))) ∧
    (let l := (raise .siteHeld [] (noticed 64 true 1)).link
     (l.lostMark, l.lostCount, l.firstLost) = (true, 2, some (.siteState, 500000))) ∧
    (raise .siteHeld [] (noticed 64 true 65535)).link.lostCount = 65535 := by decide +kernel

/-- R182: the reply leaves, and the oldest queued request is served into the slot it leaves. -/
theorem test_queued_request_served :
    (next (.frameTransmitEnd quietEnd) (waiting 2 0)).link.replySlot.map (fun r => (r.kind, r.tag)) = some (0x11, 2) ∧
    (next (.frameTransmitEnd quietEnd) (waiting 2 0)).link.queue.length = 1 := by decide +kernel

theorem witness_IdentifyAndRestartAreServed :
    (canServe ready.link = true ∧ ready.startUp.phase = .running) ∧
    (canServe State.reset.link = true ∧ State.reset.startUp.phase = .loading ∧ State.reset.startUp.phase ≠ .held) ∧
    (encodeRequest (.takeSlot 3) = some (Kind.takeSlot, 3, []) ∧ Kind.takeSlot ≠ Kind.identify ∧ Kind.takeSlot ≠ Kind.status) := by
  decide

/-- R182: BUSY while LOADING. -/
theorem test_busy_while_loading :
    (next (.takeSlot 3) State.reset).link.inFlight
      = some (.reply { tag := 3, kind := Kind.takeSlot, status := .busy, fields := [] }) ∧
    (next (.readEvent 3 1 0) State.reset).link.inFlight
      = some (.reply { tag := 3, kind := Kind.readEvent, status := .busy, fields := [] }) := by decide

/-- RESTART, then the end of its reply: a RESTART-REQUEST reset (R191, R193). -/
theorem test_restart :
    (next (.restart 1) ready).link.inFlight = some (.reply { tag := 1, kind := 3, status := .ok, fields := [] }) ∧
    (next (.restart 1) ready).link.stopped = true ∧
    (next (.frameTransmitEnd quietEnd) (next (.restart 1) ready)).startUp.phase = .loading ∧
    (next (.frameTransmitEnd quietEnd) (next (.restart 1) ready)).retained.cause = .restartRequest := by decide +kernel

theorem test_identify_and_status :
    (reply (.identify 1) ready).map (fun r => r.2.take 3) = some [.total 0x4254, .total 0x7320, .byte 1] ∧
    (reply (.status 1) (waiting 2 0)).map (fun r => (r.2.drop 7).take 3) = some [.byte 2, .byte 0, .byte 62] := by decide +kernel

theorem witness_RequestFramesDecodeBack :
    (Instr.writePlanSites 1 30 9 [entry1]).wellFormed = true ∧ (encodeRequest (.writePlanSites 1 30 9 [entry1])).isSome = true ∧
    (Instr.writePlanSites 1 255 255 (List.replicate 46 entry1)).wellFormed = true ∧
    (Instr.openCommissioning 4 true).wellFormed = true ∧ (encodeRequest (.openCommissioning 4 true)).isSome = true := by decide +kernel

theorem witness_RefusalsChangeNothing :
    encodeRequest (.takeSlot 3) = some (Kind.takeSlot, 3, []) ∧ (∀ k t b, Instr.takeSlot 3 ≠ .unknownKind k t b) ∧
    ((serveRequest (.takeSlot 3) ready).link.replySlot.map (·.status)) = some .noSpace := by
  refine ⟨rfl, (fun _ _ _ h => nomatch h), rfl⟩

theorem witness_EveryCommandKeepsSoundness :
    Sound (programmingAt 0x04 floor208) ∧ ∃ t, exec .tick (programmingAt 0x04 floor208) = .next t :=
  ⟨programmingAt_is_sound, ⟨_, rfl⟩⟩

/-! ### Groups that agree with their members -/

/-- Groups 13 and 12 of the evening with the slots' references as they stand. -/
theorem evening_group_fits (g : Nat) (h : g ∈ List.range 65) : GroupFits evening g := by
  have hd : ∀ g ∈ List.range 65, (evening.group g).members = (evening.membersOf g).length
      ∧ (evening.group g).inStep = ((evening.membersOf g).filter (countsInStep evening)).length
      ∧ ((evening.group g).settlePending = true → isSettled evening g = false) := by decide +kernel
  exact hd g h

theorem evening_groups_fit : GroupsFit evening := by
  refine ⟨fun _ g _ h => evening_group_fits g (List.mem_range.2 ?_), fun h => absurd rfl h⟩
  have : g ≤ 64 := h
  omega

theorem evening_is_sound : Sound evening :=
  ⟨evening_is_canonical, by unfold LinkWithin; decide, (fun _ _ h => nomatch h), by unfold WindowFits; decide⟩

theorem witness_EveryCommandKeepsMembership :
    (Sound evening ∧ GroupsFit evening ∧ ∃ t, exec (.removeSite 1 117) evening = .next t) :=
  ⟨evening_is_sound, evening_groups_fit, ⟨_, rfl⟩⟩

end Sys2Proof.Tests
end

section
/-! PROOFS. The Time Base (chapter 1), part 1: what moves the coordination count (R7). -/

namespace Sys2Proof.Machine.TimeClock

/-! ### Operations that leave the Time Base alone -/

/-- What leaves the fixed part alone leaves the Time Base alone. -/
theorem time_of_fixedPart {s t : State} (h : fixedPart t = fixedPart s) : t.time = s.time :=
  congrArg Fixed.time h

@[simp] theorem raise_time (kind : NoticeKind) (fields : List Field) (s : State) :
    (raise kind fields s).time = s.time := time_of_fixedPart (fixedPart_raise kind fields s)

@[simp] theorem askPass_time (p : PassAsk) (s : State) : (askPass p s).time = s.time :=
  time_of_fixedPart (fixedPart_askPass p s)

@[simp] theorem setTime_time (s : State) (v : TimeBase) : (s.setTime v).time = v := rfl

/-! #### The Floor Store -/

@[simp] theorem landBits_time (bits : Image) (s : State) : (landBits bits s).time = s.time := by
  rcases landBits_cases bits s with ⟨n, v, -, h⟩ | ⟨-, h⟩ <;> rw [h]
  rfl

@[simp] theorem readKey_time (asserted : Bool) (s : State) : (readKey asserted s).time = s.time := by
  rcases readKey_cases asserted s with ⟨-, h⟩ | ⟨-, h⟩ <;> rw [h]

@[simp] theorem look_time (seen : Seen) (s : State) : (look seen s).time = s.time := by simp [look]

@[simp] theorem windowTick_time (s : State) : (windowTick s).time = s.time := by
  unfold windowTick
  (repeat' split) <;> rfl

@[simp] theorem expireWindow_time (s : State) : (expireWindow s).time = s.time := by
  unfold expireWindow
  split <;> rfl

@[simp] theorem cutProgramming_time (cut : ProgramCut) (s : State) : (cutProgramming cut s).time = s.time := by
  unfold cutProgramming
  split <;> rfl

@[simp] theorem endFloorProgramming_time (deaf : Image) (commit : CommitReading) (failureTakes : Bool) (s : State) :
    (endFloorProgramming deaf commit failureTakes s).time = s.time := by
  unfold endFloorProgramming
  split
  · exact raise_time _ _ _
  · rfl
  · rfl

@[simp] theorem endLockProgramming_time (takes : Bool) (s : State) : (endLockProgramming takes s).time = s.time := by
  unfold endLockProgramming
  split
  · exact raise_time _ _ _
  · rfl
  · rfl

@[simp] theorem serveOpenCommissioning_time (tag : Byte) (s : State) :
    (serveOpenCommissioning tag s).time = s.time := by
  unfold serveOpenCommissioning
  (repeat' split) <;> rfl

@[simp] theorem serveCommissionFloor_time (tag : Byte) (n intervals minCycle maxCycle : Nat) (minimums : List Nat)
    (s : State) : (serveCommissionFloor tag n intervals minCycle maxCycle minimums s).time = s.time := by
  unfold serveCommissionFloor
  dsimp only
  (repeat' split) <;> rfl

@[simp] theorem serveLockFloors_time (tag : Byte) (s : State) : (serveLockFloors tag s).time = s.time := by
  unfold serveLockFloors
  (repeat' split) <;> rfl

@[simp] theorem serveReadFloor_time (tag : Byte) (n : Nat) (s : State) : (serveReadFloor tag n s).time = s.time := by
  unfold serveReadFloor
  split <;> rfl

/-! #### The Nonvolatile Store -/

@[simp] theorem writeSection_time (readsBack : Bool) (s : State) : (writeSection readsBack s).time = s.time := by
  unfold writeSection
  dsimp only
  (repeat' split) <;> rfl

@[simp] theorem endStore_time (s : State) : (endStore s).time = s.time := by
  unfold endStore
  split
  · rfl
  · split
    · rfl
    · exact raise_time _ _ _

@[simp] theorem serveStoreTables_time (tag : Byte) (s : State) : (serveStoreTables tag s).time = s.time := by
  unfold serveStoreTables
  split <;> rfl

/-! #### Start-up -/

theorem forEach_time {α : Type} (l : List α) (f : α → State → State) (h : ∀ x s, (f x s).time = s.time)
    (s : State) : (forEach l f s).time = s.time := forEach_keeps State.time l f h s

theorem loadWith_time {α : Type} (r : LoadResult × Option α) (load : α → State → State)
    (h : ∀ v s, (load v s).time = s.time) (s : State) : (loadWith r load s).time = s.time := by
  unfold loadWith
  split
  · exact h _ _
  · rfl

theorem loadRoster_time (es : List (Nat × RosterEntry)) (s : State) : (loadRoster es s).time = s.time :=
  forEach_time es (fun e t => t.setRosterEntry e.1 (some e.2)) (fun _ _ => rfl) s

theorem loadSettings_time (v : StoredSettings) (s : State) : (loadSettings v s).time = s.time :=
  forEach_time _ (fun l t => t.setLine l { t.line l with settings := v.lines.getD l LineSettings.default })
    (fun _ _ => rfl) s

theorem loadPlans_time (ps : List StoredPlan) (s : State) : (loadPlans ps s).time = s.time :=
  forEach_time ps (fun p t => t.setSlot p.slot (loadedSlot p)) (fun _ _ => rfl) s

theorem loadTimetables_time (v : StoredTimetables) (s : State) : (loadTimetables v s).time = s.time := rfl

theorem settleLines_time (s : State) : (settleLines s).time = s.time :=
  forEach_time _ (fun l t => t.setLine l { t.line l with state := derivedLineState t l }) (fun _ _ => rfl) s

theorem recheckSlot_time (n : Nat) (s : State) : (recheckSlot n s).time = s.time := by
  unfold recheckSlot
  split
  · rfl
  · exact time_of_fixedPart (fixedPart_failCheck _ _ _ _)

theorem buildEffective_time (s : State) : (buildEffective s).time = s.time := rfl

@[simp] theorem rebuildTables_time (s : State) : (rebuildTables s).time = s.time := by
  unfold rebuildTables
  extract_lets roster settings plans timetables s1 s2 loaded s3 report
  dsimp only
  calc s3.time = s2.time := forEach_time loaded recheckSlot recheckSlot_time s2
    _ = s1.time := by rw [buildEffective_time, settleLines_time]
    _ = s.time := by
      rw [ loadWith_time _ _ loadTimetables_time, loadWith_time _ _ loadPlans_time,
        loadWith_time _ _ loadSettings_time, loadWith_time _ _ loadRoster_time]

@[simp] theorem rebuildIfDue_time (s : State) : (rebuildIfDue s).time = s.time := by
  unfold rebuildIfDue
  split
  · exact rebuildTables_time s
  · rfl

theorem dropHolds_time (s : State) : (dropHolds s).time = s.time := rfl

theorem resumeGroup_time (g : Nat) (s : State) : (resumeGroup g s).time = s.time := by
  unfold resumeGroup
  dsimp only
  split
  · rfl
  · split <;> rfl

theorem raiseStarted_time (r : LoadReport) (s : State) : (raiseStarted r s).time = s.time := raise_time _ _ s

@[simp] theorem endStartUp_time (s : State) : (endStartUp s).time = s.time := by
  unfold endStartUp
  split
  · rfl
  · extract_lets s1 s2 startUp s3 s4
    calc (askPass .asked (forEach (List.range Config.lines) startRound s4)).time = s4.time := by
          rw [askPass_time, forEach_time _ _ (fun l t => time_of_fixedPart (fixedPart_startRound l t))]
      _ = s3.time := raiseStarted_time _ s3
      _ = s1.time := by rw [dropHolds_time, forEach_time _ _ resumeGroup_time]
      _ = s.time := rebuildIfDue_time s

@[simp] theorem resetPinReset_time (cut : ProgramCut) (s : State) : (resetPinReset cut s).time = s.time := by
  unfold resetPinReset
  split
  · rfl
  · exact cutProgramming_time cut s

@[simp] theorem restartReset_time (rate1 rate0 : Bool) (cut : ProgramCut) (s : State) :
    (restartReset rate1 rate0 cut s).time = s.time := cutProgramming_time cut s

@[simp] theorem releaseReset_time (rate1 rate0 : Bool) (s : State) : (releaseReset rate1 rate0 s).time = s.time := by
  unfold releaseReset
  split <;> rfl

/-! #### Reception and transmission -/

@[simp] theorem rejectFrame_time (reason : RejectReason) (bytes : Nat) (length : Option Nat) (kind tag : Option Byte)
    (s : State) : (rejectFrame reason bytes length kind tag s).time = s.time := raise_time _ _ _

@[simp] theorem rejectCurrent_time (reason : RejectReason) (more : Nat) (length : Option Nat) (s : State) :
    (rejectCurrent reason more length s).time = s.time := rejectFrame_time _ _ _ _ _ _

@[simp] theorem arrive_time (kind tag : Byte) (body : List Byte) (s : State) :
    (arrive kind tag body s).time = s.time := by
  rcases arrive_cases kind tag body s with ⟨-, h⟩ | ⟨-, -, h⟩ | ⟨-, -, h⟩ <;> rw [h]
  · rfl
  · rfl
  · exact rejectFrame_time _ _ _ _ _ _

@[simp] theorem setFramer_time (s : State) (f : Framer) : (s.setFramer f).time = s.time := rfl

@[simp] theorem frameByte_time (b : Byte) (s : State) : (frameByte b s).time = s.time := by
  unfold frameByte
  (repeat' split) <;> simp

@[simp] theorem receiveByte_time (b : Byte) (framingError : Bool) (s : State) :
    (receiveByte b framingError s).time = s.time := by
  unfold receiveByte
  (repeat' split) <;> simp

@[simp] theorem frameGap_time (s : State) : (frameGap s).time = s.time := by
  unfold frameGap
  split <;> simp

@[simp] theorem transmitEnds_time (ending : FrameEnd) (s : State) : (transmitEnds ending s).time = s.time := by
  unfold transmitEnds
  split
  · rfl
  · split
    · exact restartReset_time _ _ _ s
    · rfl

@[simp] theorem arbitrate_time (s : State) : (arbitrate s).time = s.time := by rw [arbitrate_eq]; rfl

/-! ### Operations of the Time Base that leave the count alone -/

@[simp] theorem raisePpsLost_time (s : State) : (raisePpsLost s).time = s.time := by
  unfold raisePpsLost
  split
  · rfl
  · exact raise_time _ _ _

@[simp] theorem passCounts_count (counts : Nat) (s : State) : (passCounts counts s).time.count = s.time.count := by
  unfold passCounts
  dsimp only
  split
  · rw [raisePpsLost_time]; rfl
  · rfl

@[simp] theorem spend_count (counts : Nat) (s : State) : (spend counts s).time.count = s.time.count := rfl

@[simp] theorem takeEdge_count (v : TimeBase) : (takeEdge v).count = v.count := by
  unfold takeEdge
  (repeat' split) <;> rfl

@[simp] theorem ppsEdgeAt_count (counts : Nat) (s : State) : (ppsEdgeAt counts s).time.count = s.time.count :=
  (takeEdge_count _).trans (passCounts_count counts s)

@[simp] theorem reachAbsence_count (s : State) : (reachAbsence s).time.count = s.time.count := by
  unfold reachAbsence
  split <;> simp

@[simp] theorem stepClock_count (day timeOfDay : Nat) (s : State) :
    (stepClock day timeOfDay s).time.count = s.time.count := by
  simp [stepClock]

/-- SET-TIME refuses, slews or steps (R11), its difference named once. -/
theorem serveSetTime_eq (tag : Byte) (day timeOfDay : Nat) (s : State) :
    serveSetTime tag day timeOfDay s =
      if 65535 < day ∨ 863999 < timeOfDay then refuse Kind.setTime tag .outOfRange s
      else if slews s.time (timeDifference s.time day timeOfDay) = true then
        answer Kind.setTime tag .ok
          [.code 0, .day s.time.day, .timeOfDay s.time.timeOfDay, .mark s.time.valid]
          (s.setTime { s.time with slewRemainder := timeDifference s.time day timeOfDay, slewPhase := 0 })
      else answer Kind.setTime tag .ok
          [.code 1, .day s.time.day, .timeOfDay s.time.timeOfDay, .mark s.time.valid] (stepClock day timeOfDay s) := by
  simp only [serveSetTime, Bool.or_eq_true, decide_eq_true_eq]

/-- The start of a slew leaves the count alone, whatever its difference. -/
theorem answer_slew_count (kind tag : Byte) (status : Status) (fields : List Field) (d : Int) (s : State) :
    (answer kind tag status fields (s.setTime { s.time with slewRemainder := d, slewPhase := 0 })).time.count
      = s.time.count := rfl

@[simp] theorem serveSetTime_count (tag : Byte) (day timeOfDay : Nat) (s : State) :
    (serveSetTime tag day timeOfDay s).time.count = s.time.count := by
  rw [serveSetTime_eq]
  split
  · rfl
  · split
    · exact answer_slew_count _ _ _ _ _ s
    · exact stepClock_count day timeOfDay s

/-! ### Requests leave the count alone -/

/-- No request moves the coordination count (R7). -/
theorem serveRequest_count (i : Instr) (s : State) : (serveRequest i s).time.count = s.time.count := by
  cases i with
  | setTime tag day timeOfDay => exact serveSetTime_count tag day timeOfDay s
  | openCommissioning tag key => exact congrArg TimeBase.count (serveOpenCommissioning_time tag s)
  | commissionFloor tag n k a b fs => exact congrArg TimeBase.count (serveCommissionFloor_time tag n k a b fs s)
  | lockFloors tag => exact congrArg TimeBase.count (serveLockFloors_time tag s)
  | readFloor tag read => exact congrArg TimeBase.count (serveReadFloor_time tag read.site s)
  | storeTables tag => exact congrArg TimeBase.count (serveStoreTables_time tag s)
  | identify | status | restart | getTime => rfl
  | _ => exact congrArg TimeBase.count (time_of_fixedPart (by simp [serveRequest]))

theorem serveGated_count (kind tag : Byte) (i : Instr) (s : State) :
    (serveGated kind tag (serveRequest i) s).time.count = s.time.count := by
  unfold serveGated
  split
  · exact serveRequest_count i s
  · rfl

theorem serveRecord_count (kind tag : Byte) (body : List Byte) (s : State) :
    (serveRecord kind tag body s).time.count = s.time.count := by
  unfold serveRecord
  split
  · rfl
  · rfl
  · exact serveGated_count kind tag _ s

theorem serveIfDue_count (s : State) : (serveIfDue s).time.count = s.time.count := by
  unfold serveIfDue
  split
  · exact serveRecord_count _ _ _ _
  · rfl

/-- The Link Controller's own steps leave the count alone. -/
theorem pump_count (s : State) : (pump s).time.count = s.time.count := by
  unfold pump
  split
  · rfl
  · rw [serveIfDue_count, arbitrate_time, serveIfDue_count]

theorem offer_count (i : Instr) (s : State) : (offer i (serveRequest i) s).time.count = s.time.count := by
  unfold offer
  split
  · rfl
  · split
    · rfl
    · split
      · exact serveGated_count _ _ i s
      · exact congrArg TimeBase.count (arrive_time _ _ _ s)

theorem offerFrame_count (kind tag : Byte) (body : List Byte) (s : State) :
    (offerFrame kind tag body s).time.count = s.time.count := by
  unfold offerFrame
  split
  · rfl
  · split
    · exact serveRecord_count kind tag body s
    · exact congrArg TimeBase.count (arrive_time kind tag body s)

/-! ### Ticks -/

/-- Renewals, switches and passes taken late leave the fixed part alone. -/
theorem fixedPart_flushDue (s : State) : fixedPart (flushDue s) = fixedPart s := by
  unfold flushDue
  dsimp only
  rw [fixedPart_repeat _ _ fixedPart_runOwedPass, fixedPart_forEach _ _ (fun g t => by simp)]

theorem nextPhase_count (v : TimeBase) : (nextPhase v).count = v.count := by
  unfold nextPhase
  split <;> rfl

theorem endTick_count (s : State) : (endTick s).time.count = s.time.count + 1 := by
  unfold endTick
  dsimp only
  rw [windowTick_time]
  refine (nextPhase_count _).trans ?_
  rw [apply_ite State.time, askPass_time, ite_self]
  exact congrArg (· + 1) (passCounts_count _ s)

/-- A tick moves the count on by one (R7). -/
theorem takeTick_count (s : State) : (takeTick s).time.count = s.time.count + 1 := by
  rw [takeTick, endTick_count, time_of_fixedPart (fixedPart_flushDue s)]

theorem takeSlewStep_count (s : State) :
    (takeSlewStep s).time.count = s.time.count + (if s.time.slewPhase = 99 then 1 else 0) := by
  by_cases h : s.time.slewPhase = 99
  · simp [takeSlewStep, slewDue, h, takeTick_count]
  · simp [takeSlewStep, slewDue, h]

/-! ### Every command -/

/-- A next state under `o` has the count `n`. -/
def EndsAtCount (o : Host.Outcome State Fault Refusal) (n : Count) : Prop := ∀ t, o = .next t → t.time.count = n

/-- The count of a command is that of the state it leaves to the Link Controller. -/
theorem EndsAtCount.finish {u : State} {n : Count} (h : u.time.count = n) : EndsAtCount (finish u) n := by
  rintro t ⟨⟩
  exact (pump_count u).trans h

theorem EndsAtCount.of_time {u s : State} (h : u.time = s.time) : EndsAtCount (Machine.finish u) s.time.count :=
  .finish (congrArg TimeBase.count h)

theorem EndsAtCount.of_fixedPart {u s : State} (h : fixedPart u = fixedPart s) :
    EndsAtCount (Machine.finish u) s.time.count := .of_time (time_of_fixedPart h)

theorem EndsAtCount.offer (i : Instr) (s : State) :
    EndsAtCount (Machine.finish (Machine.offer i (serveRequest i) s)) s.time.count := .finish (offer_count i s)

/-- No command but a tick and POWER_ON changes the count (R7). -/
theorem exec_keeps_count (c : Instr) (s : State) (htick : c ≠ .tick) (hslew : c ≠ .slewStep)
    (hpower : ∀ pins cut, c ≠ .powerOn pins cut) : EndsAtCount (exec c s) s.time.count := by
  cases c with
  | tick => exact absurd rfl htick
  | slewStep => exact absurd rfl hslew
  | powerOn pins cut => exact absurd rfl (hpower pins cut)
  | resetPinAssert cut => exact .of_time (resetPinReset_time cut s)
  | resetRelease rate1 rate0 => exact .of_time (releaseReset_time rate1 rate0 s)
  | startupEnd => exact .of_time (endStartUp_time s)
  | startUpTablesRebuilt => exact .of_time (rebuildIfDue_time s)
  | ppsEdge counts => exact .finish (ppsEdgeAt_count counts s)
  | ppsAbsence => exact .finish (reachAbsence_count s)
  | epochRenewal g => exact .of_fixedPart (fixedPart_renewEpoch g s)
  | windowExpiry => exact .of_time (expireWindow_time s)
  | switchTaken g => exact .of_fixedPart (fixedPart_takeIfDue g s)
  | resolverPass => exact .of_fixedPart (fixedPart_runOwedPass s)
  | planCheckStart => exact .of_fixedPart (fixedPart_planCheckStart s)
  | planCheckEnd => exact .of_fixedPart (fixedPart_planCheckEnd s)
  | floorProgrammingEnd deaf commit takes => exact .of_time (endFloorProgramming_time deaf commit takes s)
  | lockProgrammingEnd takes => exact .of_time (endLockProgramming_time takes s)
  | commissionEnDeassert => exact .of_time rfl
  | storeSectionWritten readsBack => exact .of_time (writeSection_time readsBack s)
  | storeEnd => exact .of_time (endStore_time s)
  | emptyRoundEnd l => exact .of_fixedPart (fixedPart_endEmptyRound l s)
  | pollSend l => exact .of_fixedPart (fixedPart_sendPoll l s)
  | pollSent l => exact .of_fixedPart (fixedPart_pollEnds l s)
  | reportStartBit l => exact .of_fixedPart (fixedPart_reportStarts l s)
  | replyTimeout l => exact .of_fixedPart (fixedPart_replyTimesOut l s)
  | reportGapTimeout l bytes => exact .of_fixedPart (fixedPart_receptionEnds l bytes s)
  | reportReceived l bytes => exact .of_fixedPart (fixedPart_receptionEnds l bytes s)
  | stuReport n judgeFirst => exact .of_fixedPart (fixedPart_takeStuReport n judgeFirst s)
  | cmReport n => exact .of_fixedPart (fixedPart_takeCmReport n s)
  | zeroJudgement n => exact .of_fixedPart (fixedPart_judgeNext n s)
  | fuReport n => exact .of_fixedPart (fixedPart_takeFuReport n s)
  | planningLinkByte character seen => exact .of_time (by simp)
  | frameGapTimeout => exact .of_time (frameGap_time s)
  | frameTransmitEnd ending => exact .of_time (by simp)
  | unknownKind tag kind body => exact .finish (offerFrame_count kind tag body s)
  | openCommissioning tag key =>
    exact readKey_time key s ▸ EndsAtCount.offer (.openCommissioning tag key) (readKey key s)
  | readFloor tag read => exact look_time read.seen s ▸ EndsAtCount.offer (.readFloor tag read) (look read.seen s)
  | _ => exact .offer _ s

/-- Settles O5: the three ticking commands by their own lemmas, every other by `exec_keeps_count`. -/
theorem onlyTicksMoveTheCount : Obligations.OnlyTicksMoveTheCount := by
  intro c s t h
  refine ⟨fun htick hslew hpower => exec_keeps_count c s htick hslew hpower t h, ?_, ?_, ?_⟩
  · rintro pins cut rfl
    exact EndsAtCount.finish (u := powerOnReset pins cut s) rfl t h
  · rintro rfl
    exact EndsAtCount.finish (takeTick_count s) t h
  · rintro rfl
    exact EndsAtCount.finish (takeSlewStep_count s) t h

end Sys2Proof.Machine.TimeClock
end

section
/-! PROOFS. The Time Base, part 2: what the resets leave and keep (R1, R193, R194), with what they leave of one-time
storage (R135, R138). -/

namespace Sys2Proof.Machine.TimeClock

/-- A Link Controller just reset has nothing to serve or to send. -/
theorem pump_of_reset_link {s : State} (rate : Nat) (h : s.link = LinkController.reset rate) : pump s = s := by
  by_cases hp : s.startUp.phase = .held
  · exact pump_of_held s hp
  · have hnext : nextFrame s.link = s.link := by rw [h]; rfl
    rw [pump_of_empty s (by rw [h]; rfl) hp, arbitrate_eq, hnext, ite_self]
    rfl

/-- What is told beside a frame reaches the Floor Store and the pin of COMMISSION_EN only. -/
theorem look_eq (seen : Seen) (s : State) :
    ∃ floors, look seen s = { s with floors := floors, pins := { s.pins with commissionEn := seen.key } } := by
  have hkey : ∃ floors, readKey seen.key s
      = { s with floors := floors, pins := { s.pins with commissionEn := seen.key } } := by
    rcases readKey_cases seen.key s with ⟨hk, h⟩ | ⟨hk, h⟩ <;> rw [h, hk] <;> exact ⟨_, rfl⟩
  obtain ⟨floors, h⟩ := hkey
  rw [look, h]
  rcases landBits_cases seen.programmed _ with ⟨n, v, -, hl⟩ | ⟨-, hl⟩ <;> rw [hl] <;> exact ⟨_, rfl⟩

/-! ### Programming cut off (R135, R138) -/

/-- A reset that finds nothing under way leaves one-time storage as it is. -/
theorem cutLeaves_idle {s : State} (cut : ProgramCut) (h : s.floors.programmer = .idle) :
    CutLeaves s cut s.floors.entries s.floors.lockMark := by
  simp [CutLeaves, h]

/-- A reset that cuts off the programming of the lock leaves the entries as they are. -/
theorem cutLeaves_lock {s : State} (cut : ProgramCut) (h : s.floors.programmer = .lock) :
    CutLeaves s cut s.floors.entries (s.floors.lockMark || cut.lock) := by
  simp [CutLeaves, h]

/-- A reset that cuts off the programming of an entry changes that entry alone, and as `cutEntry` says. -/
theorem cutLeaves_floor {s : State} (cut : ProgramCut) {n : Nat} {v : FloorValues}
    (h : s.floors.programmer = .floor n v) :
    CutLeaves s cut (Table.set FloorEntry.blank s.floors.entries n (cutEntry (s.floorEntry n) v.image cut))
      s.floors.lockMark := by
  refine ⟨by simp [h], by simp [h], fun m w hm => ?_⟩
  obtain ⟨rfl, rfl⟩ : n = m ∧ v = w := by simpa [h] using hm
  refine ⟨rfl, fun k hk => Table.get_set_other _ _ _ hk, _, Table.get_set_same _ _ _ _, rfl, ?_, ?_⟩ <;>
    simp [cutEntry]

/-- A reset ends the programming under way where it stands, and changes nothing else. -/
theorem cutProgramming_cases (cut : ProgramCut) (s : State) :
    ∃ entries lockMark, CutLeaves s cut entries lockMark ∧ cutProgramming cut s
      = { s with floors := { s.floors with entries := entries, lockMark := lockMark, programmer := .idle } } := by
  unfold cutProgramming
  split
  · exact ⟨_, _, cutLeaves_floor cut ‹_›, rfl⟩
  · exact ⟨_, _, cutLeaves_lock cut ‹_›, rfl⟩
  · rename_i h
    exact ⟨_, _, cutLeaves_idle cut h, by rw [← h]⟩

/-! ### The resets -/

/-- POWER_ON keeps the one-time storage, the store sections and the queue of commands (R193, R194). -/
theorem exec_powerOn (pins : PinLevels) (cut : ProgramCut) (s : State) :
    ∃ entries lockMark, CutLeaves s cut entries lockMark ∧
      exec (.powerOn pins cut) s = .next
        { State.reset with
          floors := { FloorStore.delivered with entries := entries, lockMark := lockMark }
          store := { s.store with operation := none }
          link := LinkController.reset (2 * markCode pins.rate1 + markCode pins.rate0)
          startUp := { phase := if pins.reset then .held else .loading, rebuilt := none }
          pins := { rate1 := pins.rate1, rate0 := pins.rate0, commissionEn := pins.commissionEn }
          pending := s.pending } := by
  obtain ⟨entries, lockMark, hcut, h⟩ := cutProgramming_cases cut s
  refine ⟨entries, lockMark, hcut, ?_⟩
  change finish (powerOnReset pins cut s) = _
  rw [finish, powerOnReset, h, pump_of_reset_link _ rfl]
  rfl

/-- While RESET is held its assertion changes nothing. -/
theorem exec_resetPinAssert_held (cut : ProgramCut) (s : State) (hp : s.startUp.phase = .held) :
    exec (.resetPinAssert cut) s = .next s := by
  change finish (resetPinReset cut s) = _
  rw [finish, resetPinReset, if_pos hp, pump_of_held s hp]

/-- The RESET input keeps the Time Base and the retained domain as well (R15, R194). -/
theorem exec_resetPinAssert (cut : ProgramCut) (s : State) (hp : s.startUp.phase ≠ .held) :
    ∃ entries lockMark, CutLeaves s cut entries lockMark ∧
      exec (.resetPinAssert cut) s = .next
        { State.reset with
          time := s.time
          retained := { s.retained with cause := .resetPin }
          floors := { FloorStore.delivered with entries := entries, lockMark := lockMark }
          store := { s.store with operation := none }
          link := LinkController.reset (2 * markCode s.pins.rate1 + markCode s.pins.rate0)
          startUp := { phase := .held, rebuilt := none }
          pins := s.pins
          pending := s.pending } := by
  obtain ⟨entries, lockMark, hcut, h⟩ := cutProgramming_cases cut s
  refine ⟨entries, lockMark, hcut, ?_⟩
  change finish (resetPinReset cut s) = _
  rw [finish, resetPinReset, if_neg hp, h, pump_of_reset_link _ rfl]
  rfl

/-- The end of the OK reply to RESTART begins a reset that keeps the Time Base and the retained domain (R191, R194). -/
theorem exec_frameTransmitEnd_restart (ending : FrameEnd) (s : State) (tag : Byte) (fields : List Field)
    (hf : s.link.inFlight = some (.reply { tag := tag, kind := Kind.restart, status := .ok, fields := fields })) :
    ∃ entries lockMark, CutLeaves (look ending.seen s) ending.cut entries lockMark ∧
      exec (.frameTransmitEnd ending) s = .next
        { State.reset with
          time := s.time
          retained := { s.retained with cause := .restartRequest }
          floors := { FloorStore.delivered with entries := entries, lockMark := lockMark }
          store := { s.store with operation := none }
          link := LinkController.reset (2 * markCode ending.rate1 + markCode ending.rate0)
          startUp := { phase := .loading, rebuilt := none }
          pins := { rate1 := ending.rate1, rate0 := ending.rate0, commissionEn := ending.seen.key }
          pending := s.pending } := by
  obtain ⟨entries, lockMark, hcut, h⟩ := cutProgramming_cases ending.cut (look ending.seen s)
  obtain ⟨floors, hlook⟩ := look_eq ending.seen s
  have hflight : (look ending.seen s).link.inFlight = _ := (congrArg (·.link.inFlight) hlook).trans hf
  have hends : transmitEnds ending (look ending.seen s)
      = restartReset ending.rate1 ending.rate0 ending.cut (look ending.seen s) := by
    simp [transmitEnds, hflight, isRestartReply]
  refine ⟨entries, lockMark, hcut, ?_⟩
  change finish (transmitEnds ending (look ending.seen s)) = _
  rw [finish, hends, restartReset, h, pump_of_reset_link _ rfl, hlook]
  rfl

/-- RESET_RELEASE reads the straps and leaves the part LOADING (R176, R198). -/
theorem exec_resetRelease_held (rate1 rate0 : Bool) (s : State) (hp : s.startUp.phase = .held) :
    exec (.resetRelease rate1 rate0) s = .next
      { s with
        link := LinkController.reset (2 * markCode rate1 + markCode rate0)
        startUp := { phase := .loading, rebuilt := none }
        pins := { s.pins with rate1 := rate1, rate0 := rate0 } } := by
  change finish (releaseReset rate1 rate0 s) = _
  rw [finish, releaseReset, if_pos hp, pump_of_reset_link _ rfl]
  rfl

/-- Where RESET is not held there is nothing to release. -/
theorem exec_resetRelease_idle (rate1 rate0 : Bool) (s : State) (hp : s.startUp.phase ≠ .held) :
    exec (.resetRelease rate1 rate0) s = .next (pump s) := by
  change finish (releaseReset rate1 rate0 s) = _
  rw [finish, releaseReset, if_neg hp]

/-- Settles O2, each reset by its lemma above. -/
theorem resetsKeepTheRetainedDomain : Obligations.ResetsKeepTheRetainedDomain :=
  ⟨exec_powerOn, fun cut s => ⟨exec_resetPinAssert_held cut s, exec_resetPinAssert cut s⟩,
    exec_frameTransmitEnd_restart,
    fun rate1 rate0 s => ⟨exec_resetRelease_held rate1 rate0 s, exec_resetRelease_idle rate1 rate0 s⟩⟩

end Sys2Proof.Machine.TimeClock
end

section
/-! PROOFS. The Time Base, part 3: PPS edges and their absence (R2 to R4). -/

namespace Sys2Proof.Machine.TimeClock

/-- A notice carries the Time Base only by the count at which it is lost (R188). -/
theorem raise_setTime (kind : NoticeKind) (fields : List Field) (s : State) (v : TimeBase)
    (hv : v.count = s.time.count) : raise kind fields (s.setTime v) = (raise kind fields s).setTime v := by
  have hnow : (s.setTime v).now = s.now := hv
  unfold raise
  dsimp only
  rw [hnow]
  split <;> rename_i h
  · rw [if_pos (show s.link.notices.length < Config.noticeQueue from h)]
    rfl
  · rw [if_neg (show ¬ s.link.notices.length < Config.noticeQueue from h)]
    rfl

/-- Counts that do not pass 30,000,000 only advance the capture counter (R2). -/
theorem passCounts_of_no_absence {counts : Nat} {s : State} (h : absenceWithin s.time counts = false) :
    passCounts counts s = s.setTime { s.time with
      captureCounter := min Config.captureTop (s.time.captureCounter + counts) } := by
  simp [passCounts, h]

/-! ### Edges (R2, R3) -/

theorem takeEdge_first {v : TimeBase} (h : v.edgeSeen = false) :
    takeEdge v = { v with edgeSeen := true, captureCounter := 0 } := if_pos h

theorem takeEdge_accepted {v : TimeBase} (h : v.edgeSeen = true) (hlo : 9998000 ≤ v.captureCounter)
    (hhi : v.captureCounter ≤ 10002000) :
    takeEdge v = { v with captureCounter := 0, lastCapture := v.captureCounter, verdict := .accepted,
                          acceptedN := v.captureCounter, discipline := .locked } := by
  have hb : inBand v.captureCounter = true := by simp [inBand, hlo, hhi]
  rw [takeEdge, if_neg (by simp [h]), if_pos hb]

theorem takeEdge_rejected {v : TimeBase} (h : v.edgeSeen = true)
    (hout : v.captureCounter < 9998000 ∨ 10002000 < v.captureCounter) :
    takeEdge v = { v with captureCounter := 0, lastCapture := v.captureCounter, verdict := .rejected } := by
  have hb : ¬ inBand v.captureCounter = true := by
    simp only [inBand, Bool.and_eq_true, decide_eq_true_eq]
    omega
  rw [takeEdge, if_neg (by simp [h]), if_neg hb]

/-- The Time Base once counts have passed within a tick that find no absence. -/
def afterCounts (counts : Nat) (v : TimeBase) : TimeBase :=
  { v with captureCounter := min 4294967295 (v.captureCounter + counts), tickSpent := v.tickSpent + counts }

/-- An edge meets the capture counter as the counts before it leave it. -/
theorem exec_ppsEdge {counts : Nat} {s : State} (h : absenceWithin s.time counts = false) :
    exec (.ppsEdge counts) s = .next (pump (s.setTime (takeEdge (afterCounts counts s.time)))) := by
  change finish (ppsEdgeAt counts s) = _
  rw [finish, ppsEdgeAt, passCounts_of_no_absence h]
  rfl

/-! ### Absence (R4) -/

/-- The Time Base at the count of the absence. -/
def atAbsence (v : TimeBase) : TimeBase :=
  { v with captureCounter := 30000000, tickSpent := v.tickSpent + (30000000 - v.captureCounter) }

theorem absenceWithin_countsToAbsence {v : TimeBase} (he : v.edgeSeen = true) (hc : v.captureCounter < 30000000) :
    absenceWithin v (countsToAbsence v) = true := by
  have hreach : 30000000 ≤ v.captureCounter + (30000000 - v.captureCounter) := by omega
  simp [absenceWithin, countsToAbsence, Config.absenceCounts, he, hc, hreach]

/-- The capture counter stands at 30,000,000 once the counts that were left have passed. -/
theorem captureCounter_at_absence {v : TimeBase} (hc : v.captureCounter < 30000000) :
    min Config.captureTop (v.captureCounter + countsToAbsence v) = 30000000 := by
  simp only [countsToAbsence, Config.absenceCounts, Config.captureTop]
  omega

/-- Out of LOCKED the absence leaves the discipline state alone. -/
theorem reachAbsence_unlocked {s : State} (he : s.time.edgeSeen = true) (hc : s.time.captureCounter < 30000000)
    (hd : s.time.discipline ≠ .locked) : reachAbsence s = s.setTime (atAbsence s.time) := by
  rw [reachAbsence, if_pos ⟨he, hc⟩, passCounts]
  dsimp only
  rw [if_neg (fun h => hd h.2), captureCounter_at_absence hc]
  rfl

/-- The counts spent of the tick are spent before the notice or after it alike. -/
theorem spend_raisePpsLost (counts : Nat) (s : State) :
    spend counts (raisePpsLost s) = raisePpsLost (spend counts s) := by
  unfold raisePpsLost
  have hphase : (spend counts s).startUp.phase = s.startUp.phase := rfl
  rw [hphase]
  split
  · rfl
  · rw [spend, raise_time]
    exact (raise_setTime _ _ s { s.time with tickSpent := s.time.tickSpent + counts } rfl).symm

/-- From LOCKED the part enters HOLDOVER, and PPS-LOST is raised as `raisePpsLost` says. -/
theorem reachAbsence_locked {s : State} (he : s.time.edgeSeen = true) (hc : s.time.captureCounter < 30000000)
    (hd : s.time.discipline = .locked) :
    reachAbsence s = raisePpsLost (s.setTime { atAbsence s.time with discipline := .holdover }) := by
  rw [reachAbsence, if_pos ⟨he, hc⟩, passCounts]
  dsimp only
  rw [if_pos ⟨absenceWithin_countsToAbsence he hc, hd⟩, captureCounter_at_absence hc, spend_raisePpsLost]
  rfl

/-- Without a first edge, or past 30,000,000 counts, there is no absence. -/
theorem reachAbsence_none {s : State} (h : s.time.edgeSeen = false ∨ 30000000 ≤ s.time.captureCounter) :
    reachAbsence s = s := by
  refine if_neg ?_
  rintro ⟨he, hc⟩
  rcases h with h | h
  · simp [he] at h
  · exact absurd hc (Nat.not_lt.2 h)

/-- Settles O3: each edge by `exec_ppsEdge`, the absence by the lemmas on `reachAbsence`. -/
theorem ppsEdgeAndAbsence : Obligations.PpsEdgeAndAbsence := by
  refine ⟨fun counts s hq => ?_, fun s => ⟨?_, fun h => ?_⟩⟩
  · rw [exec_ppsEdge hq]
    refine ⟨fun he => ?_, fun c hc he => ?_⟩
    · rw [takeEdge_first (v := afterCounts counts s.time) he]
      rfl
    · subst hc
      refine ⟨fun hlo hhi => ?_, fun hout => ?_⟩
      · rw [takeEdge_accepted (v := afterCounts counts s.time) he hlo hhi]
        rfl
      · rw [takeEdge_rejected (v := afterCounts counts s.time) he hout]
        rfl
  · rintro v he hc rfl
    refine ⟨fun hd hp => ?_, fun hd hp => ?_, fun hd => ?_⟩ <;> change finish (reachAbsence s) = _
    · rw [reachAbsence_locked he hc hd, raisePpsLost, if_neg (by exact hp)]
      rfl
    · rw [reachAbsence_locked he hc hd, raisePpsLost, if_pos (by exact hp), finish, pump_of_held _ (by exact hp)]
      rfl
    · rw [reachAbsence_unlocked he hc hd]
      rfl
  · change finish (reachAbsence s) = _
    rw [reachAbsence_none h, finish]

end Sys2Proof.Machine.TimeClock
end

section
/-! PROOFS. The Time Base, part 4: the tick (R5 to R8, R10, R12, R139, R140). -/

namespace Sys2Proof.Machine.TimeClock

/-! ### Nothing due -/

theorem mem_upTo {n g : Nat} : g ∈ upTo n ↔ 1 ≤ g ∧ g ≤ n := by
  simp only [upTo, List.mem_map, List.mem_range]
  constructor
  · rintro ⟨k, hk, rfl⟩
    omega
  · rintro ⟨h1, hn⟩
    exact ⟨g - 1, by omega, by omega⟩

/-- A list of which no application changes the state leaves it as it is. -/
theorem forEach_eq_self {α : Type} {l : List α} {f : α → State → State} {s : State} (h : ∀ x ∈ l, f x s = s) :
    forEach l f s = s := by
  unfold forEach
  induction l with
  | nil => rfl
  | cons x r ih =>
    rw [List.foldl_cons, h x (by simp)]
    exact ih (fun y hy => h y (by simp [hy]))

theorem renewEpoch_of_not_due {g : Nat} {s : State} (h : renewalDue (s.group g) s.now = false) :
    renewEpoch g s = s := by
  simp [renewEpoch, h]

theorem takeIfDue_of_not_due {g : Nat} {s : State} (h : ∀ p, (s.group g).pending = some p → p.instant ≠ s.now) :
    takeIfDue g s = s := by
  unfold takeIfDue
  split
  · rfl
  · exact if_neg (h _ ‹_›)

/-- Before a tick that finds nothing due there is nothing to take (assumption log 5). -/
theorem flushDue_of_nothingDue {s : State} (h : NothingDue s) : flushDue s = s := by
  obtain ⟨howed, hgroups⟩ := h
  have hgroup : ∀ g ∈ upTo Config.groups, takeIfDue g (renewEpoch g s) = s := by
    intro g hg
    obtain ⟨hrenew, htake⟩ := hgroups g (mem_upTo.1 hg).1 (mem_upTo.1 hg).2
    rw [renewEpoch_of_not_due hrenew, takeIfDue_of_not_due htake]
  unfold flushDue
  dsimp only
  rw [forEach_eq_self hgroup, howed]
  rfl

/-! ### The Time Base at the end of a tick -/

/-- R5 step 4 and R6, field by field. -/
theorem nextPhase_eq (v : TimeBase) :
    nextPhase v = { v with
      tickPhase := if v.tickPhase = 9 then 0 else v.tickPhase + 1
      tickSpent := 0
      reloadR := if v.tickPhase = 9 then v.acceptedN / 10 else v.reloadR
      reloadRem := if v.tickPhase = 9 then v.acceptedN % 10 else v.reloadRem } := by
  unfold nextPhase
  split <;> rfl

/-- The ds and the slew remainder that the tick takes are those of `CivilAdvance` (R12). -/
theorem advance_eq {v : TimeBase} {ds : Nat} {remainder : Int} (h : CivilAdvance v ds remainder) :
    (if slewDue v then slewAdvance v.slewRemainder else (1, v.slewRemainder)) = (ds, remainder) := by
  rcases h with ⟨hp, rfl, rfl⟩ | ⟨hp, hr, rfl, rfl⟩ | ⟨hp, hr, rfl, rfl⟩ | ⟨hp, hr, rfl, rfl⟩
  · simp [slewDue, hp]
  · simp [slewDue, hp, slewAdvance, hr]
  · simp [slewDue, hp, slewAdvance, hr]
  · simp [slewDue, hp, slewAdvance, hr, Int.not_lt.2 (Int.le_of_lt hr)]

theorem civilAfter_same_day {day timeOfDay ds : Nat} (h : timeOfDay + ds < 864000) :
    civilAfter day timeOfDay ds = (day, timeOfDay + ds) := if_neg (Nat.not_le.2 h)

theorem civilAfter_next_day {day timeOfDay ds : Nat} (h : 864000 ≤ timeOfDay + ds) :
    civilAfter day timeOfDay ds = ((day + 1) % 65536, timeOfDay + ds - 864000) := if_pos h

/-- R5 steps 1 and 2 (R7, R8, R12), field by field. -/
theorem tickClocks_eq {v : TimeBase} {ds : Nat} {remainder : Int} (h : CivilAdvance v ds remainder) :
    tickClocks v = { v with
      count := v.count + 1
      day := (civilAfter v.day v.timeOfDay ds).1
      timeOfDay := (civilAfter v.day v.timeOfDay ds).2
      slewRemainder := remainder
      slewPhase := if v.slewPhase = 99 then 0 else v.slewPhase + 1 } := by
  unfold tickClocks
  rw [advance_eq h]
  simp [slewDue]

/-- The Time Base once the counts left of a tick have passed and found no absence. -/
def captured (v : TimeBase) : TimeBase :=
  { v with captureCounter := min 4294967295 (v.captureCounter + (tickLength v - v.tickSpent)) }

/-- The Time Base after a tick in which no absence falls. -/
def tickTime (v : TimeBase) : TimeBase := nextPhase (tickClocks (captured v))

/-- Everything a tick makes of the Time Base. -/
theorem tickTime_eq {v : TimeBase} {ds : Nat} {remainder : Int} (h : CivilAdvance v ds remainder) :
    tickTime v = { v with
      captureCounter := min 4294967295 (v.captureCounter + (tickLength v - v.tickSpent))
      count := v.count + 1
      day := (civilAfter v.day v.timeOfDay ds).1
      timeOfDay := (civilAfter v.day v.timeOfDay ds).2
      slewRemainder := remainder
      slewPhase := if v.slewPhase = 99 then 0 else v.slewPhase + 1
      tickPhase := if v.tickPhase = 9 then 0 else v.tickPhase + 1
      tickSpent := 0
      reloadR := if v.tickPhase = 9 then v.acceptedN / 10 else v.reloadR
      reloadRem := if v.tickPhase = 9 then v.acceptedN % 10 else v.reloadRem } := by
  rw [tickTime, tickClocks_eq (v := captured v) h, nextPhase_eq]
  rfl

/-! ### The window, the minute boundary, and the tick -/

/-- The commissioning window of the Floor Store after a tick (R139, R140). -/
def windowAfterTick (f : FloorStore) : FloorStore :=
  if f.windowOpen = true then
    if f.windowCount ≤ 1 then { f with windowOpen := false, windowCount := 0 }
    else { f with windowCount := f.windowCount - 1 }
  else f

theorem windowTick_eq (s : State) : windowTick s = { s with floors := windowAfterTick s.floors } := by
  unfold windowTick windowAfterTick
  (repeat' split) <;> rfl

/-- Asking for a pass reads the clock's valid mark alone of the Time Base, and nothing of the Floor Store (R57). -/
theorem askPass_with (p : PassAsk) (s : State) (v : TimeBase) (w : FloorStore) (hv : v.valid = s.time.valid) :
    askPass p { s with time := v, floors := w } = { askPass p s with time := v, floors := w } := by
  unfold askPass State.isRunning
  dsimp only
  rw [hv]
  split <;> rfl

/-- The last steps of a tick: the next tick phase, then the window. -/
theorem windowTick_nextPhase (s : State) :
    windowTick (s.setTime (nextPhase s.time))
      = { s with time := nextPhase s.time, floors := windowAfterTick s.floors } := windowTick_eq _

/-- The last steps of a tick commute with a pass that the minute boundary asked for. -/
theorem windowTick_nextPhase_askPass (p : PassAsk) (s : State) :
    windowTick ((askPass p s).setTime (nextPhase (askPass p s).time))
      = askPass p { s with time := nextPhase s.time, floors := windowAfterTick s.floors } := by
  have hvalid : (nextPhase s.time).valid = s.time.valid := by rw [nextPhase_eq]
  have hfloors : (askPass p s).floors = s.floors := congrArg Fixed.floors (fixedPart_askPass p s)
  rw [windowTick_nextPhase, askPass_time, hfloors, askPass_with _ _ _ _ hvalid]

/-- A minute boundary is crossed where the next tick phase finds the clock valid and in another minute (R10). -/
theorem minuteCrossed_iff (v w : TimeBase) :
    minuteCrossed v w = true ↔ w.valid = true ∧ (nextPhase w).timeOfDay / 600 ≠ v.timeOfDay / 600 := by
  rw [nextPhase_eq, minuteCrossed, Bool.and_eq_true, decide_eq_true_eq, ne_comm]
  rfl

/-- The next tick phase leaves what the signal of a minute boundary carries. -/
theorem timeSignal_nextPhase (v : TimeBase) : timeSignal (nextPhase v) = timeSignal v := by
  rw [nextPhase_eq]
  rfl

/-- The end of a tick in which no absence falls (R5). -/
theorem endTick_of_no_absence {s : State} (h : NoAbsenceInTick s) :
    endTick s =
      if s.time.valid = true ∧ (tickTime s.time).timeOfDay / 600 ≠ s.time.timeOfDay / 600 then
        askPass (.signal (tickTime s.time).day ((tickTime s.time).timeOfDay / 600) (tickTime s.time).count)
          { s with time := tickTime s.time, floors := windowAfterTick s.floors }
      else { s with time := tickTime s.time, floors := windowAfterTick s.floors } := by
  have hpass : passCounts (tickLength s.time - s.time.tickSpent) s = s.setTime (captured s.time) :=
    passCounts_of_no_absence h
  have hcross : minuteCrossed (captured s.time) (tickClocks (captured s.time)) = true ↔
      s.time.valid = true ∧ (tickTime s.time).timeOfDay / 600 ≠ s.time.timeOfDay / 600 := minuteCrossed_iff _ _
  unfold endTick
  dsimp only
  rw [hpass, setTime_time, setTime_time]
  by_cases hx : minuteCrossed (captured s.time) (tickClocks (captured s.time)) = true
  · rw [if_pos hx, if_pos (hcross.1 hx), windowTick_nextPhase_askPass, ← timeSignal_nextPhase]
    rfl
  · rw [if_neg hx, if_neg (fun hc => hx (hcross.2 hc)), windowTick_nextPhase]
    rfl

/-! ### The length of a tick second -/

/-- Of `n` ticks, those below the remainder last one count longer (R5). -/
theorem sumOf_tickLengths (v : TimeBase) (n : Nat) :
    sumOf ((List.range n).map (fun k => tickLength { v with tickPhase := k })) = n * v.reloadR + min n v.reloadRem := by
  induction n with
  | zero => simp [sumOf]
  | succ n ih =>
    have happend : ∀ (l : List Nat) (x : Nat), sumOf (l ++ [x]) = sumOf l + x := by
      intro l x
      exact (List.sum_append (l₁ := l) (l₂ := [x])).trans (by rw [List.sum_singleton]; rfl)
    rw [List.range_succ, List.map_append, List.map_cons, List.map_nil, happend, ih, Nat.succ_mul, tickLength]
    dsimp only
    split <;> omega

/-- The ten ticks of a tick second last the accepted N (R5, R6). -/
theorem tickSecond_lasts_acceptedN (v : TimeBase) (hr : v.reloadR = v.acceptedN / 10)
    (hrem : v.reloadRem = v.acceptedN % 10) :
    sumOf ((List.range 10).map (fun k => tickLength { v with tickPhase := k })) = v.acceptedN := by
  rw [sumOf_tickLengths, hr, hrem]
  omega

/-- Settles O4: the tick by `endTick_of_no_absence` and `tickTime_eq`, the tick second by its sum. -/
theorem tickAdvancesTheClocksAndSlews : Obligations.TickAdvancesTheClocksAndSlews := by
  refine ⟨fun s ds remainder hdue hquiet hcivil => ?_, fun s => ⟨fun hp => ?_, fun hp => ?_⟩,
    tickSecond_lasts_acceptedN⟩
  · refine ⟨tickTime s.time, windowAfterTick s.floors, ?_, ?_⟩
    · rw [← endTick_of_no_absence hquiet]
      change finish (endTick (flushDue s)) = _
      rw [flushDue_of_nothingDue hdue, finish]
    · rw [tickTime_eq hcivil]
      refine ⟨fun ho hc => ?_, fun ho hc => ?_, fun ho => ?_, rfl, fun hd => ?_, fun hd => ?_, rfl, rfl, rfl, rfl,
        rfl, rfl, rfl, rfl, rfl, rfl, rfl, rfl, rfl⟩
      · rw [windowAfterTick, if_pos ho, if_neg (by omega)]
      · rw [windowAfterTick, if_pos ho, if_pos hc]
      · rw [windowAfterTick, if_neg (by simp [ho])]
      · rw [civilAfter_same_day hd]
        exact ⟨rfl, rfl⟩
      · rw [civilAfter_next_day hd]
        exact ⟨rfl, rfl⟩
  · change finish (takeSlewStep s) = finish (takeTick s)
    rw [takeSlewStep, if_pos (by simp [slewDue, hp])]
  · change finish (takeSlewStep s) = _
    rw [takeSlewStep, if_neg (by simp [slewDue, hp]), finish]

end Sys2Proof.Machine.TimeClock
end

section
/-! PROOFS. The Time Base, part 5: SET-TIME (R11 to R13). -/

namespace Sys2Proof.Machine.TimeClock

/-- The offer of a request to a ready part is its service (R182 case 4). -/
theorem finish_offer_of_ready {i : Instr} {s : State} {kind tag : Byte} {body : List Byte} (service : State → State)
    (hr : Ready s) (h : encodeRequest i = some (kind, tag, body)) :
    finish (offer i service s) = .next (pump (service s)) := by
  rw [offer_of_ready i service s kind tag body hr h, finish]

theorem exec_setTime_of_ready (tag : Byte) (day timeOfDay : Nat) {s : State} (hr : Ready s) :
    exec (.setTime tag day timeOfDay) s = .next (pump (serveSetTime tag day timeOfDay s)) :=
  finish_offer_of_ready _ hr rfl

/-- D is the one value of its range that differs from the plain difference by whole turns of 65536 days (R11). -/
theorem timeDifference_unique {v : TimeBase} {day timeOfDay : Nat} {d k : Int}
    (h : (day : Int) * 864000 + timeOfDay - ((v.day : Int) * 864000 + v.timeOfDay) = d + k * 56623104000)
    (hlo : -28311552000 ≤ d) (hhi : d ≤ 28311551999) : timeDifference v day timeOfDay = d := by
  simp only [timeDifference, civilValue]
  omega

theorem slews_iff (v : TimeBase) (d : Int) : slews v d = true ↔ v.valid = true ∧ -20 ≤ d ∧ d ≤ 20 := by
  simp [slews, and_assoc]

/-- SET-TIME out of range is refused. -/
theorem serveSetTime_outOfRange (tag : Byte) {day timeOfDay : Nat} (s : State)
    (h : 65535 < day ∨ 863999 < timeOfDay) :
    serveSetTime tag day timeOfDay s = answer Kind.setTime tag .outOfRange [] s := by
  rw [serveSetTime_eq, if_pos h]
  rfl

/-- In range, SET-TIME slews by D where `slews` says so, and steps otherwise. -/
theorem serveSetTime_inRange (tag : Byte) {day timeOfDay : Nat} {s : State} {d : Int} (hday : day ≤ 65535)
    (htime : timeOfDay ≤ 863999) (hd : timeDifference s.time day timeOfDay = d) :
    (slews s.time d = true → serveSetTime tag day timeOfDay s = answer Kind.setTime tag .ok
      [.code 0, .day s.time.day, .timeOfDay s.time.timeOfDay, .mark s.time.valid]
      (s.setTime { s.time with slewRemainder := d, slewPhase := 0 })) ∧
    (¬ slews s.time d = true → serveSetTime tag day timeOfDay s = answer Kind.setTime tag .ok
      [.code 1, .day s.time.day, .timeOfDay s.time.timeOfDay, .mark s.time.valid] (stepClock day timeOfDay s)) := by
  have hin : ¬ (65535 < day ∨ 863999 < timeOfDay) := by omega
  rw [serveSetTime_eq, if_neg hin, hd]
  exact ⟨fun h => if_pos h, fun h => if_neg h⟩

/-- Settles O6: D is the difference given, by `timeDifference_unique`, and its two cases are the service's. -/
theorem setTimeSlewsOrSteps : Obligations.SetTimeSlewsOrSteps := by
  intro tag day timeOfDay s hr
  rw [exec_setTime_of_ready tag day timeOfDay hr]
  refine ⟨fun hout => ?_, fun d k hday htime hdiff hlo hhi => ?_⟩
  · rw [serveSetTime_outOfRange tag s hout, answered]
  · obtain ⟨hslew, hstep⟩ := serveSetTime_inRange tag hday htime (timeDifference_unique hdiff hlo hhi)
    rw [slews_iff] at hslew hstep
    refine ⟨fun h => ?_, fun h => ?_⟩
    · rw [hslew h]
      rfl
    · rw [hstep h]
      rfl

end Sys2Proof.Machine.TimeClock
end

section
/-! PROOFS. The reads of the time, of a day program and of a calendar entry (R14, R42, R48). -/

namespace Sys2Proof.Machine.TimeClock

theorem outside_iff (lo hi n : Nat) : outside lo hi n = true ↔ n < lo ∨ hi < n := by
  simp [outside]

theorem exec_getTime_of_ready (tag : Byte) {s : State} (hr : Ready s) :
    exec (.getTime tag) s = .next (pump (serveGetTime tag s)) := finish_offer_of_ready _ hr rfl

theorem exec_readDayProgram_of_ready (tag : Byte) (p : Nat) {s : State} (hr : Ready s) :
    exec (.readDayProgram tag p) s = .next (pump (serveReadDayProgram tag p s)) := finish_offer_of_ready _ hr rfl

theorem exec_readEvent_of_ready (tag : Byte) (id next : Nat) {s : State} (hr : Ready s) :
    exec (.readEvent tag id next) s = .next (pump (serveReadEvent tag id next s)) := finish_offer_of_ready _ hr rfl

theorem serveReadDayProgram_outOfRange (tag : Byte) {p : Nat} (s : State) (h : p = 0 ∨ 64 < p) :
    serveReadDayProgram tag p s = answer Kind.readDayProgram tag .outOfRange [] s := by
  have hout : outside 1 Config.programs p = true := (outside_iff _ _ _).2 (by simp only [Config.programs]; omega)
  rw [serveReadDayProgram, if_pos hout]
  rfl

theorem serveReadDayProgram_inRange (tag : Byte) {p : Nat} (s : State) (h1 : 1 ≤ p) (h64 : p ≤ 64) :
    serveReadDayProgram tag p s = answer Kind.readDayProgram tag .ok
      (.byte p :: counted (s.program p) ProgramEntry.fields) s := by
  have hin : ¬ outside 1 Config.programs p = true := by
    rw [outside_iff, Config.programs]
    omega
  rw [serveReadDayProgram, if_neg hin]

/-! ### READ-EVENT (R48) -/

/-- The number of entries held and the sequence counter, which every reply carries. -/
def eventTail (s : State) : List Field := [.byte (eventsHeld s), .large s.resolver.sequence]

theorem serveReadEvent_outOfRange (tag : Byte) {id next : Nat} (s : State) (h : id = 0 ∨ 128 < id ∨ 1 < next) :
    serveReadEvent tag id next s = answer Kind.readEvent tag .outOfRange (eventTail s) s := by
  have hout : (outside 1 Config.events id || badMark next) = true := by
    rw [Bool.or_eq_true, outside_iff, badMark, decide_eq_true_eq, Config.events]
    omega
  unfold serveReadEvent
  dsimp only
  rw [if_pos hout]
  rfl

/-- In range, READ-EVENT replies with the entry that `eventToRead` finds. -/
theorem serveReadEvent_inRange (tag : Byte) {id next : Nat} (s : State) (h1 : 1 ≤ id) (h128 : id ≤ 128)
    (hn : next ≤ 1) :
    (∀ k e, eventToRead s id (decide (next = 1)) = some (k, e) →
      serveReadEvent tag id next s = answer Kind.readEvent tag .ok (eventFields k e ++ eventTail s) s) ∧
    (eventToRead s id (decide (next = 1)) = none →
      serveReadEvent tag id next s = answer Kind.readEvent tag .notFound (eventTail s) s) := by
  have hin : ¬ (outside 1 Config.events id || badMark next) = true := by
    rw [Bool.or_eq_true, outside_iff, badMark, decide_eq_true_eq, Config.events]
    omega
  unfold serveReadEvent
  dsimp only
  rw [if_neg hin]
  refine ⟨fun k e h => ?_, fun h => ?_⟩ <;> rw [h] <;> rfl

/-- The entries that READ-EVENT with the next mark looks through, in ascending order. -/
def occupied (s : State) : List (Nat × EventEntry) :=
  (upTo Config.events).filterMap (fun k => (s.event k).map (fun e => (k, e)))

theorem mem_occupied {s : State} {k : Nat} {e : EventEntry} :
    (k, e) ∈ occupied s ↔ (1 ≤ k ∧ k ≤ 128) ∧ s.event k = some e := by
  simp only [occupied, List.mem_filterMap, Option.map_eq_some_iff, Prod.mk.injEq]
  constructor
  · rintro ⟨_, hj, _, he, rfl, rfl⟩
    exact ⟨mem_upTo.1 hj, he⟩
  · rintro ⟨hk, he⟩
    exact ⟨k, mem_upTo.2 hk, e, he, rfl, rfl⟩

theorem occupied_ascends (s : State) : (occupied s).Pairwise (fun x y => x.1 < y.1) := by
  have hupTo : (upTo Config.events).Pairwise (· < ·) :=
    List.Pairwise.map _ (fun _ _ h => Nat.succ_lt_succ h) List.pairwise_lt_range
  refine hupTo.filterMap _ ?_
  simp only [Option.map_eq_some_iff]
  rintro a b hab _ ⟨_, -, rfl⟩ _ ⟨_, -, rfl⟩
  exact hab

/-- In an ascending list, the first entry at or above `id` is the lowest one. -/
theorem find?_lowest {l : List (Nat × EventEntry)} {id k : Nat} {e : EventEntry}
    (hl : l.Pairwise (fun x y => x.1 < y.1)) (hk : (k, e) ∈ l) (hid : id ≤ k)
    (hlow : ∀ x ∈ l, id ≤ x.1 → k ≤ x.1) : l.find? (fun x => decide (id ≤ x.1)) = some (k, e) := by
  induction l with
  | nil => exact nomatch hk
  | cons x r ih =>
    obtain ⟨hx, hr⟩ := List.pairwise_cons.1 hl
    rcases List.mem_cons.1 hk with rfl | hkr
    · exact List.find?_cons_of_pos (by simpa using hid)
    · have habove : ¬ id ≤ x.1 := by
        intro h
        have hxk := hx _ hkr
        have hkx := hlow x (by simp) h
        dsimp only at hxk
        omega
      rw [List.find?_cons_of_neg (by simpa using habove)]
      exact ih hr hkr (fun y hy => hlow y (by simp [hy]))

/-- With the next mark, the entry read is the one under the lowest occupied id at or above the one given. -/
theorem eventToRead_next {s : State} {id k : Nat} {e : EventEntry} (h1 : 1 ≤ id) (hid : id ≤ k) (hk : k ≤ 128)
    (he : s.event k = some e) (hlow : ∀ j, id ≤ j → j < k → s.event j = none) :
    eventToRead s id true = some (k, e) := by
  refine find?_lowest (occupied_ascends s) (mem_occupied.2 ⟨⟨by omega, hk⟩, he⟩) hid ?_
  rintro ⟨j, x⟩ hj hidj
  obtain ⟨-, hx⟩ := mem_occupied.1 hj
  refine Nat.le_of_not_lt (fun hlt => ?_)
  rw [hlow j hidj hlt] at hx
  exact nomatch hx

/-- Where no id at or above the one given is occupied, nothing is read. -/
theorem eventToRead_none {s : State} {id : Nat} (hnone : ∀ j, id ≤ j → j ≤ 128 → s.event j = none) :
    eventToRead s id true = none := by
  refine List.find?_eq_none.2 ?_
  rintro ⟨j, x⟩ hj hidj
  obtain ⟨⟨-, hj128⟩, hx⟩ := mem_occupied.1 hj
  rw [hnone j (of_decide_eq_true hidj) hj128] at hx
  exact nomatch hx

/-- Without the next mark, the entry read is the one under the id given. -/
theorem eventToRead_same {s : State} {id : Nat} :
    eventToRead s id false = (s.event id).map (fun e => (id, e)) := rfl

/-- Settles O7: each read by the lemma on its service, READ-EVENT by what `eventToRead` finds. -/
theorem readsReportTimeProgramsAndEvents : Obligations.ReadsReportTimeProgramsAndEvents := by
  refine ⟨fun tag s hr => exec_getTime_of_ready tag hr, fun tag p s hr => ?_, fun tag id next s hr => ?_⟩
  · rw [exec_readDayProgram_of_ready tag p hr]
    refine ⟨fun hout => ?_, fun h1 h64 => ?_⟩
    · rw [serveReadDayProgram_outOfRange tag s hout, answered]
    · rw [serveReadDayProgram_inRange tag s h1 h64]
      rfl
  · rintro tail rfl
    refine ⟨fun hout => ?_, fun h1 h128 => ?_⟩
    · rw [exec_readEvent_of_ready tag id next hr, serveReadEvent_outOfRange tag s hout]
      rfl
    · rw [exec_readEvent_of_ready tag id 0 hr, exec_readEvent_of_ready tag id 1 hr]
      obtain ⟨hfound, hmissing⟩ := serveReadEvent_inRange tag s h1 h128 (Nat.zero_le 1)
      obtain ⟨hnext, hend⟩ := serveReadEvent_inRange tag s h1 h128 (Nat.le_refl 1)
      refine ⟨fun e he => ?_, fun he => ?_, fun k e hid hk he hlow => ?_, fun hnone => ?_⟩
      · rw [hfound id e (by simp [eventToRead_same, he])]
        rfl
      · rw [hmissing (by simp [eventToRead_same, he])]
        rfl
      · rw [hnext k e (eventToRead_next h1 hid hk he hlow)]
        rfl
      · rw [hend (eventToRead_none hnone)]
        rfl

end Sys2Proof.Machine.TimeClock
end

section
/-! PROOFS. The Plan Library (chapter 2), part 1: TAKE-SLOT, POST-PLAN and WITHDRAW-PLAN (R18 to R20, R25, R32, R33). -/

namespace Sys2Proof.Machine.PlanSlots

open TimeClock (finish_offer_of_ready)

/-! ### The requests of the Plan Library on a ready part -/

theorem exec_takeSlot_of_ready (tag : Byte) {s : State} (hr : Ready s) :
    exec (.takeSlot tag) s = .next (pump (serveTakeSlot tag s)) := finish_offer_of_ready _ hr rfl

theorem exec_postPlan_of_ready (tag : Byte) (n mark : Nat) {s : State} (hr : Ready s) :
    exec (.postPlan tag n mark) s = .next (pump (servePostPlan tag n mark s)) := finish_offer_of_ready _ hr rfl

theorem exec_withdrawPlan_of_ready (tag : Byte) (n : Nat) {s : State} (hr : Ready s) :
    exec (.withdrawPlan tag n) s = .next (pump (serveWithdrawPlan tag n s)) := finish_offer_of_ready _ hr rfl

theorem not_slots_le {n : Nat} (h : n ≤ 95) : ¬ Config.slots ≤ n := Nat.not_le_of_lt (Nat.lt_succ_of_le h)

/-! ### Slots that leave the library's view -/

@[simp] theorem askPass_slot (p : PassAsk) (s : State) (k : Nat) : (askPass p s).slot k = s.slot k := by
  obtain ⟨-, -, h⟩ | ⟨-, h⟩ := askPass_cases p s
  · rw [h]
    rfl
  · rw [h]

@[simp] theorem freeSlot_slot_same (n : Nat) (s : State) : (freeSlot n s).slot n = Slot.empty :=
  State.setSlot_get_same s n Slot.empty

theorem freeSlot_slot_other {k n : Nat} (s : State) (h : k ≠ n) : (freeSlot n s).slot k = s.slot k :=
  State.setSlot_get_other s n Slot.empty h

theorem retireSlot_of_unreferenced {n : Nat} {s : State} (h : (s.slot n).refs = 0) : retireSlot n s = freeSlot n s :=
  if_pos h

theorem retireSlot_of_referenced {n : Nat} {s : State} (h : (s.slot n).refs ≠ 0) :
    retireSlot n s = s.setSlot n { s.slot n with state := .retiring } := if_neg h

/-! ### TAKE-SLOT (R20) -/

theorem serveTakeSlot_of_head (tag : Byte) {n : Nat} {rest : List Nat} {s : State}
    (h : s.library.freeList = n :: rest) :
    serveTakeSlot tag s = answer Kind.takeSlot tag .ok [.byte n, .byte rest.length]
      { s with library := { s.library with
          freeList := rest
          slots := Table.set Slot.empty s.library.slots n { Slot.empty with state := .filling } } } := by
  unfold serveTakeSlot
  rw [h]
  rfl

theorem serveTakeSlot_of_none_free (tag : Byte) {s : State} (h : s.library.freeList = []) :
    serveTakeSlot tag s = answer Kind.takeSlot tag .noSpace [.byte 255, .byte 0] s := by
  unfold serveTakeSlot
  rw [h]

/-! ### POST-PLAN (R25) -/

theorem servePostPlan_outOfRange (tag : Byte) {n mark : Nat} (s : State) (h : 96 ≤ n ∨ 2 ≤ mark) :
    servePostPlan tag n mark s = answer Kind.postPlan tag .outOfRange [] s :=
  if_pos (by simpa [badMark, Nat.succ_le_iff] using h)

/-- In range, a store in progress refuses POST-PLAN, and otherwise the slot's state decides it. -/
theorem servePostPlan_inRange (tag : Byte) {n mark : Nat} (s : State) (hn : n ≤ 95) (hm : mark ≤ 1) :
    (s.storing = true → servePostPlan tag n mark s = answer Kind.postPlan tag .busy [] s) ∧
    (s.storing = false →
      ((s.slot n).state = .filling →
        servePostPlan tag n mark s = answer Kind.postPlan tag .ok [.byte s.library.checkQueue.length]
          { s with library := { s.library with
              slots := Table.set Slot.empty s.library.slots n
                { s.slot n with state := .checking, supersede := decide (mark = 1) }
              checkQueue := s.library.checkQueue ++ [n] } }) ∧
      ((s.slot n).state = .checking → servePostPlan tag n mark s = answer Kind.postPlan tag .busy [] s) ∧
      ((s.slot n).state = .free ∨ (s.slot n).state = .posted ∨ (s.slot n).state = .retiring →
        servePostPlan tag n mark s = answer Kind.postPlan tag .wrongState [] s)) := by
  have hin : ¬ (decide (Config.slots ≤ n) || badMark mark) = true := by
    simp only [badMark, Config.slots, Bool.or_eq_true, decide_eq_true_eq]
    omega
  unfold servePostPlan
  dsimp only
  rw [if_neg hin]
  refine ⟨fun hs => if_pos hs, fun hs => ?_⟩
  rw [if_neg (by simp [hs])]
  refine ⟨fun h => ?_, fun h => ?_, ?_⟩
  · rw [h]
    rfl
  · rw [h]
    rfl
  · rintro (h | h | h) <;> rw [h] <;> rfl

/-! ### WITHDRAW-PLAN (R32, R33) -/

theorem serveWithdrawPlan_outOfRange (tag : Byte) {n : Nat} (s : State) (h : 96 ≤ n) :
    serveWithdrawPlan tag n s = answer Kind.withdrawPlan tag .outOfRange [] s := if_pos h

/-- A slot that leaves FILLING or CHECKING becomes FREE at once. -/
theorem serveWithdrawPlan_unposted (tag : Byte) {n : Nat} {s : State} (hn : n ≤ 95) :
    ((s.slot n).state = .filling →
      serveWithdrawPlan tag n s = answer Kind.withdrawPlan tag .ok [.code 0] (freeSlot n s)) ∧
    ((s.slot n).state = .checking →
      serveWithdrawPlan tag n s = answer Kind.withdrawPlan tag .ok [.code 0] (freeSlot n (dropCheck n s))) := by
  unfold serveWithdrawPlan
  dsimp only
  rw [if_neg (not_slots_le hn)]
  refine ⟨fun h => ?_, fun h => ?_⟩ <;> rw [h] <;> dsimp only <;> rw [freeSlot_slot_same] <;> rfl

/-- A POSTED slot leaves the library's view, unless a store is in progress. -/
theorem serveWithdrawPlan_posted (tag : Byte) {n : Nat} {s : State} (hn : n ≤ 95) (h : (s.slot n).state = .posted) :
    (s.storing = true → serveWithdrawPlan tag n s = answer Kind.withdrawPlan tag .busy [.code 3] s) ∧
    (s.storing = false → serveWithdrawPlan tag n s = answer Kind.withdrawPlan tag .ok
      [.code ((retireSlot n s).slot n).state.code] (askPass .asked (retireSlot n s))) := by
  unfold serveWithdrawPlan
  dsimp only
  rw [if_neg (not_slots_le hn), h]
  dsimp only
  refine ⟨fun hs => if_pos hs, fun hs => ?_⟩
  rw [if_neg (by simp [hs]), askPass_slot]

/-- A FREE or RETIRING slot refuses WITHDRAW-PLAN. -/
theorem serveWithdrawPlan_wrongState (tag : Byte) {n : Nat} {s : State} (hn : n ≤ 95)
    (h : (s.slot n).state = .free ∨ (s.slot n).state = .retiring) :
    serveWithdrawPlan tag n s = answer Kind.withdrawPlan tag .wrongState [.code (s.slot n).state.code] s := by
  unfold serveWithdrawPlan
  dsimp only
  rw [if_neg (not_slots_le hn)]
  rcases h with h | h <;> rw [h]

/-- Settles O11: each request by the lemmas on its service, a withdrawn POSTED slot by whether it is referenced. -/
theorem slotsAreTakenPostedAndWithdrawn : Obligations.SlotsAreTakenPostedAndWithdrawn := by
  refine ⟨fun tag s hr => ?_, fun tag n mark s hr => ?_, fun tag n s hr => ?_⟩
  · rw [exec_takeSlot_of_ready tag hr]
    refine ⟨fun n rest h => ?_, fun h => ?_⟩
    · rw [serveTakeSlot_of_head tag h, answered]
    · rw [serveTakeSlot_of_none_free tag h, answered]
  · rw [exec_postPlan_of_ready tag n mark hr]
    refine ⟨fun h => ?_, fun hn hm => ?_⟩
    · rw [servePostPlan_outOfRange tag s h, answered]
    · obtain ⟨hstoring, hidle⟩ := servePostPlan_inRange tag s hn hm
      refine ⟨fun hs => ?_, fun hs => ?_⟩
      · rw [hstoring hs, answered]
      · obtain ⟨hfilling, hchecking, hother⟩ := hidle hs
        refine ⟨fun h => ?_, fun h => ?_, fun h => ?_⟩
        · rw [hfilling h, answered]
        · rw [hchecking h, answered]
        · rw [hother h, answered]
  · rw [exec_withdrawPlan_of_ready tag n hr]
    refine ⟨fun h => by rw [serveWithdrawPlan_outOfRange tag s h, answered], fun hn => ?_⟩
    obtain ⟨hfilling, hchecking⟩ := serveWithdrawPlan_unposted tag (s := s) hn
    refine ⟨fun h => ?_, fun h => ?_, fun h => ?_, fun h => ?_, fun h => ?_⟩
    · rw [serveWithdrawPlan_wrongState tag hn (.inl h), h]
      rfl
    · rw [hfilling h]
      rfl
    · rw [hchecking h]
      rfl
    · obtain ⟨hstoring, hidle⟩ := serveWithdrawPlan_posted tag hn h
      refine ⟨fun hs => ?_, fun hs hrefs => ?_, fun hs hrefs => ?_⟩
      · rw [hstoring hs, answered]
      · rw [hidle hs, retireSlot_of_unreferenced hrefs, freeSlot_slot_same]
        rfl
      · rw [hidle hs, retireSlot_of_referenced hrefs, State.setSlot_get_same]
        rfl
    · rw [serveWithdrawPlan_wrongState tag hn (.inr h), h]
      rfl

end Sys2Proof.Machine.PlanSlots
end

section
/-! PROOFS. The Plan Library, part 2: WRITE-PLAN-HEADER and WRITE-PLAN-SITES (R21 to R23). -/

namespace Sys2Proof.Machine.PlanSlots

open TimeClock (finish_offer_of_ready)

theorem exec_writePlanHeader_of_ready (tag : Byte) (n : Nat) (h : RawHeader) {s : State} (hr : Ready s) :
    exec (.writePlanHeader tag n h) s = .next (pump (serveWritePlanHeader tag n h s)) :=
  finish_offer_of_ready _ hr rfl

theorem exec_writePlanSites_of_ready (tag : Byte) (n first : Nat) (es : List RawEntry) {s : State} (hr : Ready s) :
    exec (.writePlanSites tag n first es) s = .next (pump (serveWritePlanSites tag n first es s)) :=
  finish_offer_of_ready _ hr rfl

/-! ### The slot written to (R21) -/

theorem writeRefusal_outOfRange {n : Nat} (s : State) (h : 96 ≤ n) : writeRefusal s n = some .outOfRange := if_pos h

theorem writeRefusal_of_filling {n : Nat} {s : State} (hn : n ≤ 95) (h : (s.slot n).state = .filling) :
    writeRefusal s n = none := by
  rw [writeRefusal, if_neg (not_slots_le hn), h]

theorem writeRefusal_of_checking {n : Nat} {s : State} (hn : n ≤ 95) (h : (s.slot n).state = .checking) :
    writeRefusal s n = some .busy := by
  rw [writeRefusal, if_neg (not_slots_le hn), h]

theorem writeRefusal_of_wrongState {n : Nat} {s : State} (hn : n ≤ 95)
    (h : (s.slot n).state = .free ∨ (s.slot n).state = .posted ∨ (s.slot n).state = .retiring) :
    writeRefusal s n = some .wrongState := by
  rw [writeRefusal, if_neg (not_slots_le hn)]
  obtain h | h | h := h <;> rw [h]

/-- A slot that is not FILLING refuses WRITE-PLAN-HEADER. -/
theorem serveWritePlanHeader_of_refusal (tag : Byte) {n : Nat} (h : RawHeader) {s : State} {status : Status}
    (hw : writeRefusal s n = some status) :
    serveWritePlanHeader tag n h s = answer Kind.writePlanHeader tag status [] s := by
  unfold serveWritePlanHeader
  dsimp only
  rw [hw]
  rfl

/-- A slot that is not FILLING refuses WRITE-PLAN-SITES. -/
theorem serveWritePlanSites_of_refusal (tag : Byte) {n : Nat} (first : Nat) (es : List RawEntry) {s : State}
    {status : Status} (hw : writeRefusal s n = some status) :
    serveWritePlanSites tag n first es s = answer Kind.writePlanSites tag status [] s := by
  unfold serveWritePlanSites
  dsimp only
  rw [hw]
  rfl

/-! ### Codes and ranges -/

theorem outside_eq (lo hi n : Nat) : outside lo hi n = decide (n < lo ∨ hi < n) := (Bool.decide_or _ _).symm

/-- A number outside a range from 1 is 0 or above the range. -/
theorem outside_one_eq (hi n : Nat) : outside 1 hi n = decide (n = 0 ∨ hi < n) := by
  simp [outside_eq]

/-- The codes of the three correction modes are 0, 1 and 2. -/
theorem ofCode_isNone_eq (c : Nat) : (CorrMode.ofCode c).isNone = decide (2 < c) := by
  match c with
  | 0 => rfl
  | 1 => rfl
  | 2 => rfl
  | _ + 3 => simp [CorrMode.ofCode]

@[simp] theorem ofCode_code (m : CorrMode) : CorrMode.ofCode m.code = some m := by cases m <;> rfl

/-! ### WRITE-PLAN-HEADER (R22) -/

theorem headerFault_eq (h : RawHeader) :
    headerFault h = [decide (h.plan = 0 ∨ 250 < h.plan), decide (h.group = 0 ∨ 64 < h.group),
      decide (h.cycle < 300 ∨ 2550 < h.cycle), decide (2 < h.mode), false, false, decide (h.window = 0),
      false, decide (h.count = 0 ∨ 48 < h.count)].findIdx? id := by
  unfold headerFault firstFault badGroup
  rw [outside_one_eq, outside_one_eq, outside_one_eq, outside_eq, ofCode_isNone_eq]
  rfl

theorem headerClamped_iff (h : RawHeader) :
    headerClamped h = true ↔ 30 < h.shorten ∨ 50 < h.lengthen ∨ 100 < h.window := by
  simp [headerClamped, or_assoc]

/-- Of a FILLING slot, WRITE-PLAN-HEADER is refused by the first bad field, and otherwise stores the header. -/
theorem serveWritePlanHeader_of_filling (tag : Byte) {n : Nat} (h : RawHeader) {s : State}
    (hw : writeRefusal s n = none) :
    (∀ place, headerFault h = some place →
      serveWritePlanHeader tag n h s = answer Kind.writePlanHeader tag .outOfRange [.named place] s) ∧
    (headerFault h = none →
      serveWritePlanHeader tag n h s = answer Kind.writePlanHeader tag (if headerClamped h then .adjusted else .ok)
        (storedHeader h).fields (s.setSlot n { s.slot n with header := some (storedHeader h) })) := by
  unfold serveWritePlanHeader
  dsimp only
  rw [hw]
  dsimp only
  refine ⟨fun place hf => ?_, fun hf => ?_⟩ <;> rw [hf]

/-- A known mode is stored as the mode its code names. -/
theorem storedHeader_of_mode {h : RawHeader} {mode : CorrMode} (hm : mode.code = h.mode) :
    storedHeader h = { plan := h.plan, group := h.group, cycle := h.cycle, mode := mode, shorten := min 30 h.shorten,
                       lengthen := min 50 h.lengthen, window := min 100 h.window, cohortKey := h.cohortKey,
                       count := h.count } := by
  rw [storedHeader, ← hm, ofCode_code]
  rfl

/-- Settles O12: `writeRefusal` decides by the slot's state, `headerFault` by the fields, and the header stored is
`storedHeader`. -/
theorem headerIsJudgedAndClamped : Obligations.HeaderIsJudgedAndClamped := by
  intro tag n h s hr
  rw [exec_writePlanHeader_of_ready tag n h hr]
  refine ⟨fun hn => ?_, fun hn hs => ?_, fun hn hs => ?_, fun hn hs bad hbad => ?_⟩
  · rw [serveWritePlanHeader_of_refusal tag h (writeRefusal_outOfRange s hn), answered]
  · rw [serveWritePlanHeader_of_refusal tag h (writeRefusal_of_checking hn hs), answered]
  · rw [serveWritePlanHeader_of_refusal tag h (writeRefusal_of_wrongState hn hs), answered]
  · obtain ⟨hrefused, hstored⟩ := serveWritePlanHeader_of_filling tag h (writeRefusal_of_filling hn hs)
    rw [headerFault_eq, ← hbad] at hrefused hstored
    refine ⟨fun place hf => ?_, fun v hf hm hv => ?_⟩
    · rw [hrefused place hf, answered]
    · rw [hstored hf, storedHeader_of_mode hm, ← hv, answered]
      simp only [headerClamped_iff]

/-! ### WRITE-PLAN-SITES (R23) -/

/-- What R23 asks of a site entry, as the statement of O13 writes it. -/
theorem badEntry_eq (e : RawEntry) :
    badEntry e = (decide (e.site = 0 ∨ 384 < e.site ∨ 2549 < e.offset ∨ e.intervals = 0 ∨ 8 < e.intervals)
      || (e.splits.take e.intervals).any (fun x => decide (x = 0 ∨ 2550 < x))
      || decide (e.modeOverride ≠ 255 ∧ 2 < e.modeOverride)) := by
  have hany : outside 1 2550 = fun x => decide (x = 0 ∨ 2550 < x) := funext (outside_one_eq 2550)
  rw [badEntry, badSite, outside_one_eq, outside_one_eq, ofCode_isNone_eq, hany]
  simp only [Bool.decide_or, Bool.decide_and, Bool.or_assoc]

/-- Entries put at consecutive places replace what those held, and no other place's. -/
theorem get_putEntries (first : Nat) (es : List RawEntry) (t : Table (Option SiteEntry)) (i : Nat) :
    Table.get none (putEntries first es t) i
      = if first ≤ i ∧ i < first + es.length then (es[i - first]?).map storedEntry else Table.get none t i := by
  induction es generalizing first t with
  | nil => rw [putEntries, if_neg (by simp)]
  | cons e r ih =>
    rw [putEntries, ih, Table.get_set, List.length_cons]
    rcases Nat.lt_trichotomy i first with h | rfl | h
    · rw [if_neg (by omega), if_neg (by omega), if_neg (by omega)]
    · rw [if_neg (by omega), if_pos rfl, if_pos (by omega), Nat.sub_self]
      rfl
    · have hplace : i - first = (i - (first + 1)) + 1 := by omega
      have hrange : (first + 1 ≤ i ∧ i < first + 1 + r.length) ↔ (first ≤ i ∧ i < first + (r.length + 1)) := by omega
      rw [if_neg (Nat.ne_of_gt h), hplace, List.getElem?_cons_succ]
      simp only [hrange]

/-- Of a FILLING slot, WRITE-PLAN-SITES is refused by its range, else by its first bad entry, and else stores its
entries. -/
theorem serveWritePlanSites_of_filling (tag : Byte) {n first : Nat} {es : List RawEntry} {s : State}
    (hw : writeRefusal s n = none) :
    (es.length = 0 ∨ 8 < es.length ∨ 48 < first + es.length →
      serveWritePlanSites tag n first es s = answer Kind.writePlanSites tag .outOfRange [.byte 255] s) ∧
    (1 ≤ es.length → es.length ≤ 8 → first + es.length ≤ 48 →
      (∀ j, es.findIdx? badEntry = some j →
        serveWritePlanSites tag n first es s = answer Kind.writePlanSites tag .outOfRange [.byte (first + j)] s) ∧
      (es.findIdx? badEntry = none →
        serveWritePlanSites tag n first es s = answer Kind.writePlanSites tag .ok [.byte first, .byte es.length]
          (s.setSlot n { s.slot n with entries := putEntries first es (s.slot n).entries }))) := by
  have hrange : (outside 1 8 es.length || decide (Config.entriesPerPlan < first + es.length)) = true
      ↔ es.length = 0 ∨ 8 < es.length ∨ 48 < first + es.length := by
    simp [outside_one_eq, or_assoc]
  unfold serveWritePlanSites
  dsimp only
  rw [hw]
  dsimp only
  refine ⟨fun hout => if_pos (hrange.2 hout), fun h1 h8 h48 => ?_⟩
  rw [if_neg (mt hrange.1 (by omega))]
  refine ⟨fun j hj => ?_, fun hnone => ?_⟩
  · rw [hj]
  · rw [hnone]

/-- Settles O13: `writeRefusal` decides by the slot's state, then the range, then the first bad entry; what each place
holds afterwards is `get_putEntries`. -/
theorem siteEntriesReplaceTheirPlaces : Obligations.SiteEntriesReplaceTheirPlaces := by
  intro tag n first es s hr
  rw [exec_writePlanSites_of_ready tag n first es hr]
  refine ⟨fun hn => ?_, fun hn hs => ?_, fun hn hs => ?_, fun hn hs => ?_⟩
  · rw [serveWritePlanSites_of_refusal tag first es (writeRefusal_outOfRange s hn), answered]
  · rw [serveWritePlanSites_of_refusal tag first es (writeRefusal_of_checking hn hs), answered]
  · rw [serveWritePlanSites_of_refusal tag first es (writeRefusal_of_wrongState hn hs), answered]
  · obtain ⟨hrange, hentries⟩ := serveWritePlanSites_of_filling tag (first := first) (es := es)
      (writeRefusal_of_filling hn hs)
    refine ⟨fun hout => ?_, fun bad h1 h8 h48 hbad => ?_⟩
    · rw [hrange hout, answered]
    · obtain ⟨hrefused, hstored⟩ := hentries h1 h8 h48
      rw [show badEntry = bad from hbad ▸ funext badEntry_eq] at hrefused hstored
      refine ⟨fun j hj => ?_, fun hnone => ⟨putEntries first es (s.slot n).entries, ?_, get_putEntries first es _⟩⟩
      · rw [hrefused j hj, answered]
      · rw [hstored hnone, answered]

end Sys2Proof.Machine.PlanSlots
end

section
/-! PROOFS. The Plan Library, part 3: the plan check of Table 2-4 (R26 to R29), and what its pass says of a plan. -/

namespace Sys2Proof.Machine.PlanSlots

/-! ### The lowest number with a property -/

/-- `o` is the lowest number of which `P` holds, and none where there is no such number. -/
def Lowest (P : Nat → Prop) (o : Option Nat) : Prop := ∀ i, o = some i ↔ P i ∧ ∀ j, j < i → ¬ P j

theorem Lowest.congr {P Q : Nat → Prop} {o : Option Nat} (h : Lowest P o) (hPQ : ∀ i, Q i ↔ P i) : Lowest Q o := by
  simpa only [Lowest, hPQ] using h

/-- Any number with the property leaves a lowest one. -/
theorem Lowest.none_iff {P : Nat → Prop} {o : Option Nat} (h : Lowest P o) : o = none ↔ ∀ i, ¬ P i := by
  refine ⟨fun ho i => ?_, fun hno => Option.eq_none_iff_forall_ne_some.2 (fun i ho => hno i ((h i).1 ho).1)⟩
  induction i using Nat.strongRecOn with
  | ind i ih =>
    intro hi
    have hsome : o = some i := (h i).2 ⟨hi, ih⟩
    rw [ho] at hsome
    exact nomatch hsome

theorem lowest_none {P : Nat → Prop} (h : ∀ i, ¬ P i) : Lowest P none :=
  fun i => ⟨fun hi => absurd hi (Option.some_ne_none i).symm, fun hi => absurd hi.1 (h i)⟩

/-- Where the property can hold of one number only, that one is the lowest. -/
theorem lowest_ite {P : Nat → Prop} {p : Prop} [Decidable p] {k : Nat} (h : ∀ i, P i ↔ i = k ∧ p) :
    Lowest P (if p then some k else none) := by
  by_cases hp : p
  · rw [if_pos hp]
    refine fun i => ⟨fun hi => ?_, fun ⟨hPi, _⟩ => congrArg some ((h i).1 hPi).1.symm⟩
    obtain rfl := Option.some.inj hi
    exact ⟨(h k).2 ⟨rfl, hp⟩, fun j hj hPj => Nat.ne_of_lt hj ((h j).1 hPj).1⟩
  · rw [if_neg hp]
    exact lowest_none (fun i hi => hp ((h i).1 hi).2)

theorem lowest_findIdx? {α : Type} (l : List α) (p : α → Bool) :
    Lowest (fun i => ∃ x, l[i]? = some x ∧ p x = true) (l.findIdx? p) := by
  intro i
  rw [List.findIdx?_eq_some_iff_getElem]
  constructor
  · rintro ⟨hi, hp, hmin⟩
    refine ⟨⟨l[i], List.getElem?_eq_getElem hi, hp⟩, ?_⟩
    rintro j hj ⟨x, hx, hpx⟩
    obtain ⟨hjl, rfl⟩ := List.getElem?_eq_some_iff.1 hx
    exact hmin j hj hpx
  · rintro ⟨⟨x, hx, hpx⟩, hmin⟩
    obtain ⟨hi, rfl⟩ := List.getElem?_eq_some_iff.1 hx
    exact ⟨hi, hpx, fun j hj hpj => hmin j hj ⟨_, List.getElem?_eq_getElem (Nat.lt_trans hj hi), hpj⟩⟩

theorem lowest_find?_range (n : Nat) (p : Nat → Bool) :
    Lowest (fun i => i < n ∧ p i = true) ((List.range n).find? p) := by
  intro i
  rw [List.find?_range_eq_some]
  refine ⟨?_, ?_⟩
  · rintro ⟨hp, hi, hmin⟩
    refine ⟨⟨List.mem_range.1 hi, hp⟩, fun j hj hpj => ?_⟩
    simpa [hpj.2] using hmin j hj
  · rintro ⟨⟨hi, hp⟩, hmin⟩
    refine ⟨hp, List.mem_range.2 hi, fun j hj => ?_⟩
    simpa [Nat.lt_trans hj hi] using hmin j hj

/-- The first repeat of a list is the lowest place whose item stands at an earlier place too. -/
theorem lowest_firstRepeat (l : List Nat) :
    Lowest (fun i => ∃ x, l[i]? = some x ∧ ∃ j, j < i ∧ l[j]? = some x) (firstRepeat l) := by
  have hgetD : ∀ i (hi : i < l.length), l.getD i 0 = l[i] := fun i hi => by
    rw [List.getD_eq_getElem?_getD, List.getElem?_eq_getElem hi, Option.getD_some]
  refine (lowest_find?_range _ _).congr (fun i => ?_)
  rw [List.contains_iff_mem, List.mem_take_iff_getElem]
  constructor
  · rintro ⟨x, hx, j, hji, hj⟩
    obtain ⟨hi, rfl⟩ := List.getElem?_eq_some_iff.1 hx
    obtain ⟨hjl, hjx⟩ := List.getElem?_eq_some_iff.1 hj
    exact ⟨hi, j, by omega, by rw [hjx, hgetD i hi]⟩
  · rintro ⟨hi, j, hj, hjx⟩
    rw [hgetD i hi] at hjx
    exact ⟨l[i], List.getElem?_eq_getElem hi, j, by omega, by rw [← hjx]; exact List.getElem?_eq_getElem (by omega)⟩

/-! ### The entries of a record -/

theorem filterMap_congr_of_mem {α β : Type} {l : List α} {f g : α → Option β} (h : ∀ x ∈ l, f x = g x) :
    l.filterMap f = l.filterMap g := by
  induction l with
  | nil => rfl
  | cons x r ih =>
    obtain ⟨hx, hr⟩ := List.forall_mem_cons.1 h
    rw [List.filterMap_cons, List.filterMap_cons, hx, ih hr]

/-- The slot holds an entry at every index below `count`: check 1 passes. -/
def Filled (v : Slot) (count : Nat) : Prop := ∀ i, i < count → Table.get none v.entries i ≠ none

/-- The record holds an entry at index `i`, below its count, and `P` holds of it. -/
def HoldsAt (v : Slot) (count i : Nat) (P : SiteEntry → Prop) : Prop :=
  ∃ e, i < count ∧ Table.get none v.entries i = some e ∧ P e

/-- A filled record lists its entries by index (R17). -/
theorem recordEntries_getElem? {v : Slot} {h : PlanHeader} (hv : v.header = some h) (hf : Filled v h.count)
    (i : Nat) (e : SiteEntry) :
    v.recordEntries[i]? = some e ↔ i < h.count ∧ Table.get none v.entries i = some e := by
  have hmap : v.recordEntries
      = (List.range h.count).map (fun i => (Table.get none v.entries i).getD SiteEntry.absent) := by
    unfold Slot.recordEntries
    rw [hv]
    dsimp only
    rw [← List.filterMap_eq_map]
    refine filterMap_congr_of_mem (fun j hj => ?_)
    obtain ⟨x, hx⟩ := Option.ne_none_iff_exists'.1 (hf j (List.mem_range.1 hj))
    simp [hx]
  rw [hmap, List.getElem?_map]
  by_cases hi : i < h.count
  · obtain ⟨x, hx⟩ := Option.ne_none_iff_exists'.1 (hf i hi)
    simp [hi, hx]
  · simp [hi]

/-- A test of a filled record's entries finds the lowest index whose entry has the property tested. -/
theorem lowest_firstEntry {v : Slot} {h : PlanHeader} (hv : v.header = some h) (hf : Filled v h.count)
    {bad : SiteEntry → Bool} {P : SiteEntry → Prop}
    (hP : ∀ i e, i < h.count → Table.get none v.entries i = some e → (bad e = true ↔ P e)) :
    Lowest (fun i => HoldsAt v h.count i P) (firstEntry v.recordEntries bad) := by
  refine (lowest_findIdx? _ _).congr (fun i => exists_congr fun e => ?_)
  rw [recordEntries_getElem? hv hf, and_assoc]
  exact and_congr_right fun hi => and_congr_right fun he => (hP i e hi he).symm

/-! ### Where each check fails -/

section
variable {s : State} {n : Nat} {supersede : Bool} {h : PlanHeader} (hh : (s.slot n).header = some h) (i : Nat)
include hh

theorem failsAt_entry_iff :
    FailsAt s n supersede 1 i ↔ i < h.count ∧ Table.get none (s.slot n).entries i = none := by
  simp [FailsAt, hh]

theorem failsAt_group_iff : FailsAt s n supersede 2 i ↔
    HoldsAt (s.slot n) h.count i (fun e => ∀ r, s.rosterEntry e.site = some r → r.group ≠ h.group) := by
  simp [FailsAt, HoldsAt, hh]

theorem failsAt_repeat_iff : FailsAt s n supersede 3 i ↔ HoldsAt (s.slot n) h.count i
    (fun e => ∃ j x, j < i ∧ Table.get none (s.slot n).entries j = some x ∧ x.site = e.site) := by
  simp [FailsAt, HoldsAt, hh]

theorem failsAt_floor_iff : FailsAt s n supersede 4 i ↔
    HoldsAt (s.slot n) h.count i (fun e => s.effectiveFloor e.site = none) := by
  simp [FailsAt, HoldsAt, hh]

theorem failsAt_intervals_iff : FailsAt s n supersede 5 i ↔ HoldsAt (s.slot n) h.count i
    (fun e => ∃ f, s.effectiveFloor e.site = some f ∧ e.splits.length ≠ f.intervals) := by
  simp [FailsAt, HoldsAt, hh]

theorem failsAt_sum_iff : FailsAt s n supersede 6 i ↔
    HoldsAt (s.slot n) h.count i (fun e => sumOf e.splits ≠ h.cycle) := by
  simp [FailsAt, HoldsAt, hh]

theorem failsAt_minimum_iff : FailsAt s n supersede 7 i ↔ HoldsAt (s.slot n) h.count i
    (fun e => ∃ f, s.effectiveFloor e.site = some f ∧ ∃ p ∈ List.zip e.splits f.minimums, p.1 < p.2) := by
  simp [FailsAt, HoldsAt, hh]

theorem failsAt_limits_iff : FailsAt s n supersede 8 i ↔ HoldsAt (s.slot n) h.count i
    (fun e => ∃ f, s.effectiveFloor e.site = some f ∧ (h.cycle < f.minCycle ∨ f.maxCycle < h.cycle)) := by
  simp [FailsAt, HoldsAt, hh]

theorem failsAt_offset_iff : FailsAt s n supersede 9 i ↔
    HoldsAt (s.slot n) h.count i (fun e => h.cycle ≤ e.offset) := by
  simp [FailsAt, HoldsAt, hh]

theorem failsAt_posted_iff : FailsAt s n supersede 10 i ↔ i = 255 ∧ supersede = false ∧
    ∃ k v, (k, v) ∈ s.library.slots ∧ k ≠ n ∧ v.isPosted h.plan = true := by
  simp [FailsAt, hh]

end

/-- A check that fails is one of the ten of Table 2-4. -/
theorem check_of_failsAt {s : State} {n : Nat} {supersede : Bool} {c i : Nat} (hc : FailsAt s n supersede c i) :
    1 ≤ c ∧ c ≤ 10 := by
  rcases hc with ⟨-, rfl, -⟩ | ⟨h, -, ⟨rfl, -⟩ | ⟨rfl, -⟩ | ⟨e, -, -,
    ⟨rfl, -⟩ | ⟨rfl, -⟩ | ⟨rfl, -⟩ | ⟨rfl, -⟩ | ⟨rfl, -⟩ | ⟨f, -, ⟨rfl, -⟩ | ⟨rfl, -⟩ | ⟨rfl, -⟩⟩⟩⟩ <;> decide

/-! ### The plan check as the first of ten -/

/-- The floor that the plan checker reads for an entry: no floor at all reads as zeros, which only checks after check 4
do. -/
def checkedFloor (s : State) (e : SiteEntry) : FloorValues :=
  (s.effectiveFloor e.site).getD { intervals := 0, minimums := [], minCycle := 0, maxCycle := 0 }

theorem checkedFloor_of_effective {s : State} {e : SiteEntry} {f : FloorValues} (h : s.effectiveFloor e.site = some f) :
    checkedFloor s e = f := by
  rw [checkedFloor, h]
  rfl

/-- The index that the plan checker finds for each check of Table 2-4, for a record with a header; `recordFault_eq` and
`planCheck_eq` tie it to the model's own check. -/
def foundAt (s : State) (n : Nat) (supersede : Bool) (h : PlanHeader) : Nat → Option Nat
  | 1 => (List.range h.count).find? (fun i => (Table.get none (s.slot n).entries i).isNone)
  | 2 => firstEntry (s.slot n).recordEntries (fun e => (s.rosterEntry e.site).all (fun r => r.group != h.group))
  | 3 => firstRepeat ((s.slot n).recordEntries.map (·.site))
  | 4 => firstEntry (s.slot n).recordEntries (fun e => (s.effectiveFloor e.site).isNone)
  | 5 => firstEntry (s.slot n).recordEntries (fun e => e.splits.length != (checkedFloor s e).intervals)
  | 6 => firstEntry (s.slot n).recordEntries (fun e => sumOf e.splits != h.cycle)
  | 7 => firstEntry (s.slot n).recordEntries (fun e => belowFloor e.splits (checkedFloor s e).minimums)
  | 8 => firstEntry (s.slot n).recordEntries
      (fun e => outside (checkedFloor s e).minCycle (checkedFloor s e).maxCycle h.cycle)
  | 9 => firstEntry (s.slot n).recordEntries (fun e => decide (h.cycle ≤ e.offset))
  | 10 => if supersede = false ∧ (otherPosted s n h.plan).isSome = true then some 255 else none
  | _ => none

/-- The index found for each check, with the absent header of R26. -/
def found (s : State) (n : Nat) (supersede : Bool) (c : Nat) : Option Nat :=
  match (s.slot n).header with
  | none => if c = 1 then some 255 else none
  | some h => foundAt s n supersede h c

/-- The first check at which an index is found, with that index. -/
def firstFound (f : Nat → Option Nat) (checks : Nat) : Option (Nat × Nat) :=
  (List.range checks).findSome? (fun c => (f c).map (fun i => (c, i)))

theorem firstFound_succ (f : Nat → Option Nat) (checks : Nat) :
    firstFound f (checks + 1) = (firstFound f checks).or ((f checks).map (fun i => (checks, i))) := by
  simp [firstFound, List.range_succ, List.findSome?_append]

theorem firstFound_eq_none_iff (f : Nat → Option Nat) (checks : Nat) :
    firstFound f checks = none ↔ ∀ c, c < checks → f c = none := by
  simp [firstFound]

theorem firstFound_eq_some_iff (f : Nat → Option Nat) (checks c i : Nat) :
    firstFound f checks = some (c, i) ↔ c < checks ∧ f c = some i ∧ ∀ d, d < c → f d = none := by
  induction checks with
  | zero => simp [firstFound]
  | succ k ih =>
    simp only [firstFound_succ, Option.or_eq_some_iff, ih, firstFound_eq_none_iff, Option.map_eq_some_iff,
      Prod.mk.injEq]
    constructor
    · rintro (⟨hc, hfound⟩ | ⟨hno, j, hj, rfl, rfl⟩)
      · exact ⟨Nat.lt_succ_of_lt hc, hfound⟩
      · exact ⟨Nat.lt_succ_self k, hj, hno⟩
    · rintro ⟨hc, hi, hno⟩
      obtain hlt | rfl := Nat.lt_succ_iff_lt_or_eq.1 hc
      · exact .inl ⟨hlt, hi, hno⟩
      · exact .inr ⟨hno, i, hi, rfl, rfl⟩

/-- Checks 1 to 9 of the model, in the table's order, are the first nine of `foundAt`. -/
theorem recordFault_eq (s : State) (n : Nat) (supersede : Bool) (h : PlanHeader) :
    recordFault s h (s.slot n) = firstFound (foundAt s n supersede h) 10 := by
  simp only [firstFound_succ, Option.or_assoc, recordFault]
  simp only [firstFound, foundAt, Option.orElse_eq_orElse, Option.orElse_eq_or, List.range_zero, List.findSome?_nil,
    Option.map_none, Option.none_or]
  rfl

/-- The plan check takes the first check of Table 2-4 that fails, and passes where none does. -/
theorem planCheck_eq (s : State) (n : Nat) (supersede : Bool) :
    planCheck s n supersede = (firstFound (found s n supersede) 11).elim
      (.passed ((s.slot n).header.bind (fun h => otherPosted s n h.plan))) (fun x => .failed x.1 x.2) := by
  unfold planCheck found
  cases hh : (s.slot n).header with
  | none => rfl
  | some h =>
    dsimp only
    rw [firstFound_succ, recordFault_eq s n supersede h]
    cases firstFound (foundAt s n supersede h) 10 with
    | some x => rfl
    | none =>
      cases ho : otherPosted s n h.plan with
      | none => simp [foundAt, ho]
      | some m => cases supersede <;> simp [foundAt, ho]

/-! ### Each check finds the lowest index at which it fails -/

theorem absentOrOtherGroup_iff (o : Option RosterEntry) (g : Nat) :
    o.all (fun r => r.group != g) = true ↔ ∀ r, o = some r → r.group ≠ g := by
  simp [Option.all_eq_true]

theorem belowFloor_iff (splits minimums : List Nat) :
    belowFloor splits minimums = true ↔ ∃ p ∈ List.zip splits minimums, p.1 < p.2 := by
  rw [belowFloor, ← List.map_uncurry_zip_eq_zipWith]
  simp

theorem otherPosted_eq_some {s : State} {n plan m : Nat} (h : otherPosted s n plan = some m) :
    m ≠ n ∧ ∃ v, (m, v) ∈ s.library.slots ∧ v.isPosted plan = true := by
  obtain ⟨⟨k, v⟩, hfind, rfl⟩ := Option.map_eq_some_iff.1 h
  have htest := List.find?_some hfind
  simp only [Bool.and_eq_true, bne_iff_ne] at htest
  exact ⟨htest.1, v, List.mem_of_find?_eq_some hfind, htest.2⟩

theorem otherPosted_eq_none_iff {s : State} {n plan : Nat} :
    otherPosted s n plan = none ↔ ∀ k v, (k, v) ∈ s.library.slots → k ≠ n → v.isPosted plan = false := by
  simp [otherPosted]

theorem otherPosted_isSome_iff {s : State} {n plan : Nat} :
    (otherPosted s n plan).isSome = true ↔ ∃ k v, (k, v) ∈ s.library.slots ∧ k ≠ n ∧ v.isPosted plan = true := by
  simp [otherPosted]

/-- A record that check 1 passes is filled. -/
theorem filled_of_check {s : State} {n : Nat} {supersede : Bool} {h : PlanHeader} (hh : (s.slot n).header = some h)
    (hpass : ∀ i, ¬ FailsAt s n supersede 1 i) : Filled (s.slot n) h.count :=
  fun i hi he => hpass i ((failsAt_entry_iff hh i).2 ⟨hi, he⟩)

/-- In a filled record that check 4 passes, the floor that the checker reads for an entry is its effective floor. -/
theorem exists_effective_iff {s : State} {n : Nat} {supersede : Bool} {h : PlanHeader} (hh : (s.slot n).header = some h)
    (hpass : ∀ i, ¬ FailsAt s n supersede 4 i) {i : Nat} {e : SiteEntry} (hi : i < h.count)
    (he : Table.get none (s.slot n).entries i = some e) (P : FloorValues → Prop) :
    P (checkedFloor s e) ↔ ∃ f, s.effectiveFloor e.site = some f ∧ P f := by
  cases hf : s.effectiveFloor e.site with
  | none => exact absurd ((failsAt_floor_iff hh i).2 ⟨e, hi, he, hf⟩) (hpass i)
  | some f => simp [checkedFloor_of_effective hf]

/-- In a filled record, the first repeat of the sites is the lowest index whose entry names the site of an earlier
one. -/
theorem lowest_firstRepeat_sites {v : Slot} {h : PlanHeader} (hv : v.header = some h) (hf : Filled v h.count) :
    Lowest (fun i => HoldsAt v h.count i
        (fun e => ∃ j x, j < i ∧ Table.get none v.entries j = some x ∧ x.site = e.site))
      (firstRepeat (v.recordEntries.map (·.site))) := by
  refine (lowest_firstRepeat _).congr (fun i => ?_)
  simp only [List.getElem?_map, Option.map_eq_some_iff, recordEntries_getElem? hv hf]
  constructor
  · rintro ⟨e, hi, he, j, x, hji, hx, hsite⟩
    exact ⟨e.site, ⟨e, ⟨hi, he⟩, rfl⟩, j, hji, x, ⟨Nat.lt_trans hji hi, hx⟩, hsite⟩
  · rintro ⟨_, ⟨e, ⟨hi, he⟩, rfl⟩, j, hji, x, ⟨-, hx⟩, hsite⟩
    exact ⟨e, hi, he, j, x, hji, hx, hsite⟩

/-- A check that no earlier one fails before finds the lowest index at which it fails, of a record with a header. -/
theorem foundAt_lowest {s : State} {n : Nat} {supersede : Bool} {h : PlanHeader} (hh : (s.slot n).header = some h)
    (c : Nat) (hpass : ∀ d, d < c → ∀ i, ¬ FailsAt s n supersede d i) :
    Lowest (FailsAt s n supersede c) (foundAt s n supersede h c) := by
  have hfilled : 1 < c → Filled (s.slot n) h.count := fun hc => filled_of_check hh (hpass 1 hc)
  have hfloor : 4 < c → ∀ i e, i < h.count → Table.get none (s.slot n).entries i = some e → ∀ P : FloorValues → Prop,
      (P (checkedFloor s e) ↔ ∃ f, s.effectiveFloor e.site = some f ∧ P f) :=
    fun hc i e hi he => exists_effective_iff hh (hpass 4 hc) hi he
  match c with
  | 0 => exact lowest_none (fun _ hi => absurd (check_of_failsAt hi).1 (by decide))
  | 1 => exact (lowest_find?_range _ _).congr (fun i => by rw [failsAt_entry_iff hh, Option.isNone_iff_eq_none])
  | 2 =>
    exact (lowest_firstEntry hh (hfilled (by decide)) (fun _ e _ _ =>
      absentOrOtherGroup_iff (s.rosterEntry e.site) h.group)).congr (failsAt_group_iff hh)
  | 3 => exact (lowest_firstRepeat_sites hh (hfilled (by decide))).congr (failsAt_repeat_iff hh)
  | 4 =>
    exact (lowest_firstEntry hh (hfilled (by decide)) (fun _ e _ _ =>
      Option.isNone_iff_eq_none (o := s.effectiveFloor e.site))).congr (failsAt_floor_iff hh)
  | 5 =>
    exact (lowest_firstEntry hh (hfilled (by decide)) (fun i e hi he =>
      bne_iff_ne.trans (hfloor (by decide) i e hi he (fun f => e.splits.length ≠ f.intervals)))).congr
        (failsAt_intervals_iff hh)
  | 6 =>
    exact (lowest_firstEntry hh (hfilled (by decide)) (fun _ e _ _ =>
      bne_iff_ne (a := sumOf e.splits) (b := h.cycle))).congr (failsAt_sum_iff hh)
  | 7 =>
    exact (lowest_firstEntry hh (hfilled (by decide)) (fun i e hi he =>
      (belowFloor_iff _ _).trans
        (hfloor (by decide) i e hi he (fun f => ∃ p ∈ List.zip e.splits f.minimums, p.1 < p.2)))).congr
        (failsAt_minimum_iff hh)
  | 8 =>
    exact (lowest_firstEntry hh (hfilled (by decide)) (fun i e hi he =>
      (TimeClock.outside_iff _ _ _).trans
        (hfloor (by decide) i e hi he (fun f => h.cycle < f.minCycle ∨ f.maxCycle < h.cycle)))).congr
        (failsAt_limits_iff hh)
  | 9 =>
    exact (lowest_firstEntry hh (hfilled (by decide)) (fun _ e _ _ =>
      decide_eq_true_iff (p := h.cycle ≤ e.offset))).congr (failsAt_offset_iff hh)
  | 10 => exact lowest_ite (fun i => by rw [failsAt_posted_iff hh, otherPosted_isSome_iff])
  | k + 11 => exact lowest_none (fun _ hi => absurd (check_of_failsAt hi).2 (by omega))

theorem found_lowest {s : State} {n : Nat} {supersede : Bool} (c : Nat)
    (hpass : ∀ d, d < c → ∀ i, ¬ FailsAt s n supersede d i) :
    Lowest (FailsAt s n supersede c) (found s n supersede c) := by
  unfold found
  cases hh : (s.slot n).header with
  | none => exact lowest_ite (fun i => by simp [FailsAt, hh, and_comm])
  | some h => exact foundAt_lowest hh c hpass

/-- The checks before one find nothing just where they do not fail. -/
theorem found_none_before_iff {s : State} {n : Nat} {supersede : Bool} (c : Nat) :
    (∀ d, d < c → found s n supersede d = none) ↔ ∀ d, d < c → ∀ i, ¬ FailsAt s n supersede d i := by
  induction c with
  | zero => simp
  | succ k ih =>
    rw [Nat.forall_lt_succ_right, Nat.forall_lt_succ_right, ih]
    exact and_congr_right fun hpass => (found_lowest k hpass).none_iff

/-! ### The outcomes of the plan check -/

/-- A plan check fails with the first check that fails, at the lowest index at which that one does. -/
theorem planCheck_failed_iff (s : State) (n : Nat) (supersede : Bool) (c i : Nat) :
    planCheck s n supersede = .failed c i ↔
      FailsAt s n supersede c i ∧ (∀ j, j < i → ¬ FailsAt s n supersede c j) ∧
        ∀ d j, d < c → ¬ FailsAt s n supersede d j := by
  have hmatch : planCheck s n supersede = .failed c i ↔ firstFound (found s n supersede) 11 = some (c, i) := by
    rw [planCheck_eq]
    cases firstFound (found s n supersede) 11 <;> simp [Prod.ext_iff]
  rw [hmatch, firstFound_eq_some_iff, found_none_before_iff]
  constructor
  · rintro ⟨-, hi, hpass⟩
    obtain ⟨hfails, hlowest⟩ := (found_lowest c hpass i).1 hi
    exact ⟨hfails, hlowest, fun d j hd => hpass d hd j⟩
  · rintro ⟨hfails, hlowest, hpass⟩
    have hbefore : ∀ d, d < c → ∀ j, ¬ FailsAt s n supersede d j := fun d hd j => hpass d j hd
    exact ⟨Nat.lt_succ_of_le (check_of_failsAt hfails).2, (found_lowest c hbefore i).2 ⟨hfails, hlowest⟩, hbefore⟩

/-- A plan check passes just where no check fails, superseding the other slot POSTED with the plan number. -/
theorem planCheck_passed_iff (s : State) (n : Nat) (supersede : Bool) (m : Option Nat) :
    planCheck s n supersede = .passed m ↔ (∀ c i, ¬ FailsAt s n supersede c i) ∧
      ∃ h, (s.slot n).header = some h ∧ otherPosted s n h.plan = m := by
  have hmatch : planCheck s n supersede = .passed m ↔ firstFound (found s n supersede) 11 = none ∧
      (s.slot n).header.bind (fun h => otherPosted s n h.plan) = m := by
    rw [planCheck_eq]
    cases firstFound (found s n supersede) 11 <;> simp
  have hnone : (∀ d, d < 11 → ∀ i, ¬ FailsAt s n supersede d i) ↔ ∀ c i, ¬ FailsAt s n supersede c i :=
    ⟨fun hno c i hi => hno c (Nat.lt_succ_of_le (check_of_failsAt hi).2) i hi, fun hno d _ => hno d⟩
  rw [hmatch, firstFound_eq_none_iff, found_none_before_iff, hnone]
  refine and_congr_right fun hno => ?_
  cases hh : (s.slot n).header with
  | none => exact absurd (.inl ⟨hh, rfl, rfl⟩) (hno 1 255)
  | some h => simp

section
variable {s : State} {n : Nat} {supersede : Bool} {h : PlanHeader} (hh : (s.slot n).header = some h)
  (hno : ∀ c i, ¬ FailsAt s n supersede c i)
include hh hno

/-- Where no check fails, the entries of the record are those at the indices below its count (R27). -/
theorem passed_filled : Filled (s.slot n) h.count := filled_of_check hh (hno 1)

theorem passed_length : (s.slot n).recordEntries.length = h.count := by
  have hget := recordEntries_getElem? hh (passed_filled hh hno)
  refine Nat.le_antisymm (Nat.le_of_not_lt fun hlt => ?_) (Nat.le_of_not_lt fun hlt => ?_)
  · exact absurd ((hget _ _).1 (List.getElem?_eq_getElem hlt)).1 (Nat.lt_irrefl _)
  · obtain ⟨e, he⟩ := Option.ne_none_iff_exists'.1 (passed_filled hh hno _ hlt)
    exact absurd ((hget _ e).2 ⟨hlt, he⟩) (by simp)

/-- Where no check fails, no two entries name one site (check 3). -/
theorem passed_nodup : ((s.slot n).recordEntries.map (·.site)).Nodup := by
  have hget := recordEntries_getElem? hh (passed_filled hh hno)
  refine List.Pairwise.map _ (fun _ _ h => h) (R := fun x y => x.site ≠ y.site) ?_
  refine List.pairwise_iff_getElem.2 (fun j i hj hi hji hsite => ?_)
  obtain ⟨-, hx⟩ := (hget j _).1 (List.getElem?_eq_getElem hj)
  obtain ⟨hicount, he⟩ := (hget i _).1 (List.getElem?_eq_getElem hi)
  exact hno 3 i ((failsAt_repeat_iff hh i).2 ⟨_, hicount, he, j, _, hji, hx, hsite⟩)

/-- Where no check fails, each entry meets the roster and its floor (checks 2 and 4 to 9). -/
theorem passed_entry {e : SiteEntry} (hmem : e ∈ (s.slot n).recordEntries) :
    ∃ r f, s.rosterEntry e.site = some r ∧ r.group = h.group ∧ s.effectiveFloor e.site = some f ∧
      e.splits.length = f.intervals ∧ sumOf e.splits = h.cycle ∧
      (∀ p ∈ List.zip e.splits f.minimums, p.2 ≤ p.1) ∧
      f.minCycle ≤ h.cycle ∧ h.cycle ≤ f.maxCycle ∧ e.offset < h.cycle := by
  obtain ⟨i, hget⟩ := List.getElem?_of_mem hmem
  obtain ⟨hi, he⟩ := (recordEntries_getElem? hh (passed_filled hh hno) i e).1 hget
  obtain ⟨r, hr, hrg⟩ : ∃ r, s.rosterEntry e.site = some r ∧ r.group = h.group :=
    Classical.byContradiction fun hbad =>
      hno 2 i ((failsAt_group_iff hh i).2 ⟨e, hi, he, fun r hr hrg => hbad ⟨r, hr, hrg⟩⟩)
  have hfloor : s.effectiveFloor e.site ≠ none := fun hbad => hno 4 i ((failsAt_floor_iff hh i).2 ⟨e, hi, he, hbad⟩)
  obtain ⟨f, hf⟩ := Option.ne_none_iff_exists'.1 hfloor
  refine ⟨r, f, hr, hrg, hf, ?_, ?_, fun p hp => ?_, ?_, ?_, ?_⟩
  · exact Decidable.of_not_not fun hbad => hno 5 i ((failsAt_intervals_iff hh i).2 ⟨e, hi, he, f, hf, hbad⟩)
  · exact Decidable.of_not_not fun hbad => hno 6 i ((failsAt_sum_iff hh i).2 ⟨e, hi, he, hbad⟩)
  · exact Nat.le_of_not_lt fun hbad => hno 7 i ((failsAt_minimum_iff hh i).2 ⟨e, hi, he, f, hf, p, hp, hbad⟩)
  · exact Nat.le_of_not_lt fun hbad => hno 8 i ((failsAt_limits_iff hh i).2 ⟨e, hi, he, f, hf, .inl hbad⟩)
  · exact Nat.le_of_not_lt fun hbad => hno 8 i ((failsAt_limits_iff hh i).2 ⟨e, hi, he, f, hf, .inr hbad⟩)
  · exact Nat.lt_of_not_le fun hbad => hno 9 i ((failsAt_offset_iff hh i).2 ⟨e, hi, he, hbad⟩)

/-- Where no check fails and another slot is POSTED with the plan number, the supersede mark is set (check 10). -/
theorem passed_supersede {k : Nat} (hk : otherPosted s n h.plan = some k) : supersede = true := by
  obtain ⟨hkn, v, hv, hposted⟩ := otherPosted_eq_some hk
  exact Bool.of_not_eq_false fun hbad => hno 10 255 ((failsAt_posted_iff hh 255).2 ⟨rfl, hbad, k, v, hv, hkn, hposted⟩)

end

/-- Settles O15: the outcomes are `planCheck_failed_iff` and `planCheck_passed_iff`, and what a pass says of the record
is that none of the ten checks fails. -/
theorem passedPlanMeetsEveryFloor : Obligations.PassedPlanMeetsEveryFloor := by
  refine ⟨fun s n supersede => ⟨planCheck_failed_iff s n supersede, ?_, ?_⟩, fun s n supersede m hpassed => ?_⟩
  · rw [planCheck_passed_iff]
    refine and_congr_right fun hno => ?_
    cases hh : (s.slot n).header with
    | none => exact absurd (.inl ⟨hh, rfl, rfl⟩) (hno 1 255)
    | some h =>
      simp only [Option.some.injEq, exists_eq_left', otherPosted_eq_none_iff]
      exact ⟨fun hnone _ k v hx => hx ▸ hnone k v, fun hnone k v => hnone h k v rfl⟩
  · simp only [planCheck_passed_iff]
    rw [exists_and_left]
    refine and_congr_right fun hno => ?_
    cases hh : (s.slot n).header with
    | none => simp
    | some h => simp [← otherPosted_isSome_iff, Option.isSome_iff_exists]
  · obtain ⟨hno, h, hh, rfl⟩ := (planCheck_passed_iff s n supersede m).1 hpassed
    refine ⟨h, hh, passed_length hh hno, passed_nodup hh hno, fun e he => passed_entry hh hno he,
      otherPosted_eq_none_iff.1, fun k hk => ?_⟩
    exact ⟨passed_supersede hh hno hk, otherPosted_eq_some hk⟩

end Sys2Proof.Machine.PlanSlots
end

section
/-! PROOFS. The Plan Library, part 4: how a plan check starts and ends (R24, R26, R30, R31). -/

namespace Sys2Proof.Machine.PlanSlots

/-! ### The start and the end of a check -/

theorem exec_planCheckStart (s : State) : exec .planCheckStart s = .next (pump (planCheckStart s)) := rfl

theorem exec_planCheckEnd (s : State) : exec .planCheckEnd s = .next (pump (planCheckEnd s)) := rfl

theorem planCheckStart_waiting {s : State} (hq : s.library.checkQueue ≠ []) (hc : s.library.checking = false) :
    planCheckStart s = { s with library := { s.library with checking := true } } :=
  if_neg (by simp [hq, hc])

theorem planCheckStart_idle {s : State} (h : s.library.checkQueue = [] ∨ s.library.checking = true) :
    planCheckStart s = s := if_pos (by simpa using h)

theorem planCheckEnd_idle {s : State} (h : s.library.checkQueue = [] ∨ s.library.checking = false) :
    planCheckEnd s = s := by
  unfold planCheckEnd
  split
  · next hc hq => simp [hc, hq] at h
  · rfl

/-- The state once the head of the check queue has left it and the checker is free. -/
def afterCheck (s : State) (rest : List Nat) : State :=
  { s with library := { s.library with checkQueue := rest, checking := false } }

/-- A check under way ends as `planCheck` says of the head of the check queue. -/
theorem planCheckEnd_under_way {s : State} {n : Nat} {rest : List Nat} (hq : s.library.checkQueue = n :: rest)
    (hc : s.library.checking = true) :
    (∀ m, planCheck s n (s.slot n).supersede = .passed m → planCheckEnd s = passCheck n m (afterCheck s rest)) ∧
    (∀ check i, planCheck s n (s.slot n).supersede = .failed check i →
      planCheckEnd s = failCheck n check i (afterCheck s rest)) := by
  unfold planCheckEnd
  rw [hq, hc]
  dsimp only
  refine ⟨fun m h => ?_, fun check i h => ?_⟩ <;> rw [h] <;> rfl

/-! ### The slot posted (R30) -/

/-- A slot POSTED keeps what its entry places below the count hold, and empties the others. -/
theorem get_posted_entries {v : Slot} {h : PlanHeader} (hv : v.header = some h) (i : Nat) :
    Table.get none v.posted.entries i = if i < h.count then Table.get none v.entries i else none := by
  have hentries : v.posted.entries = v.entries.filter (fun e => decide (e.1 < h.count)) := by
    simp [Slot.posted, hv]
  rw [hentries, Table.get_filter_key none (fun k => decide (k < h.count))]
  simp only [decide_eq_true_eq]

@[simp] theorem posted_header (v : Slot) : v.posted.header = v.header := rfl

theorem posted_recordEntries (v : Slot) : v.posted.recordEntries = v.recordEntries := by
  unfold Slot.recordEntries
  rw [posted_header]
  cases hv : v.header with
  | none => rfl
  | some h =>
    refine filterMap_congr_of_mem (fun i hi => ?_)
    rw [get_posted_entries hv, if_pos (List.mem_range.1 hi)]

theorem posted_recordBytes (v : Slot) : v.posted.recordBytes = v.recordBytes := by
  rw [Slot.recordBytes, Slot.recordBytes, posted_recordEntries, posted_header]

theorem posted_checkCode (v : Slot) : v.posted.checkCode = some (crc16 v.posted.recordBytes) := rfl

theorem posted_onlyRecordPlaces {v : Slot} {h : PlanHeader} (hv : v.header = some h) : OnlyRecordPlaces v v.posted :=
  ⟨h, hv, fun i hi => by rw [get_posted_entries hv, if_pos hi],
    fun i hi => by rw [get_posted_entries hv, if_neg (Nat.not_lt_of_le hi)]⟩

/-! ### The slot superseded (R30) -/

/-- A slot superseded as another is POSTED becomes FREE, or RETIRING while it is referenced; only the slots and the
free list change. -/
theorem retireSlot_after_post {n m : Nat} {s t : State} {v : Slot} (hmn : m ≠ n)
    (ht : retireSlot m (s.setSlot n v) = t) :
    t.slot n = v ∧
    ((s.slot m).refs = 0 → t.slot m = Slot.empty ∧ t.library.freeList = s.library.freeList ++ [m]) ∧
    ((s.slot m).refs ≠ 0 → t.slot m = { s.slot m with state := .retiring } ∧
      t.library.freeList = s.library.freeList) ∧
    (∀ k, k ≠ n → k ≠ m → t.slot k = s.slot k) ∧
    t = { s with library := { s.library with slots := t.library.slots, freeList := t.library.freeList } } := by
  have hm : (s.setSlot n v).slot m = s.slot m := State.setSlot_get_other s n v hmn
  subst ht
  obtain ⟨hrefs, h⟩ | ⟨hrefs, h⟩ := retireSlot_cases m (s.setSlot n v) <;> rw [hm] at hrefs <;> rw [h]
  · refine ⟨?_, fun _ => ⟨freeSlot_slot_same m _, rfl⟩, fun hne => absurd hrefs hne, fun k hkn hkm => ?_, rfl⟩
    · rw [freeSlot_slot_other _ hmn.symm, State.setSlot_get_same]
    · rw [freeSlot_slot_other _ hkm, State.setSlot_get_other _ _ _ hkn]
  · rw [hm]
    refine ⟨?_, fun h0 => absurd h0 hrefs, fun _ => ⟨State.setSlot_get_same _ m _, rfl⟩, fun k hkn hkm => ?_, rfl⟩
    · rw [State.setSlot_get_other _ _ _ hmn.symm, State.setSlot_get_same]
    · rw [State.setSlot_get_other _ _ _ hkm, State.setSlot_get_other _ _ _ hkn]

/-! ### A check that passes (R30) -/

theorem planOfSlot_of_posted {s t : State} {n : Nat} (h : t.slot n = (s.slot n).posted) :
    planOfSlot t n = planOfSlot s n := by
  rw [planOfSlot, planOfSlot, h, posted_header]

theorem passCheck_none (n : Nat) (s : State) :
    passCheck n none s = askPass .asked (raisePlanChecked n (planOfSlot s n) 0 255 (s.slot n).posted.checkCode none
      (s.setSlot n (s.slot n).posted)) := by
  have hn : (s.setSlot n (s.slot n).posted).slot n = (s.slot n).posted := State.setSlot_get_same s n _
  unfold passCheck
  dsimp only
  rw [planOfSlot_of_posted hn, hn]
  rfl

theorem passCheck_some {n m : Nat} {s t : State} (ht : retireSlot m (s.setSlot n (s.slot n).posted) = t)
    (hn : t.slot n = (s.slot n).posted) :
    passCheck n (some m) s = askPass .asked (raisePlanChecked n (planOfSlot s n) 0 255 (t.slot n).checkCode
      (some (m, (t.slot m).state)) t) := by
  unfold passCheck
  dsimp only
  rw [ht, planOfSlot_of_posted hn]
  rfl

/-- Settles O14: the two commands by the lemmas on their operations; the slot posted is `Slot.posted`, and what becomes
of the slot it supersedes is `retireSlot_after_post`. -/
theorem planChecksEndInPassOrFail : Obligations.PlanChecksEndInPassOrFail := by
  intro s
  rw [exec_planCheckStart, exec_planCheckEnd]
  refine ⟨fun hq hc => by rw [planCheckStart_waiting hq hc], fun h => by rw [planCheckStart_idle h],
    fun h => by rw [planCheckEnd_idle h], fun n rest hq hc => ?_⟩
  obtain ⟨hpass, hfail⟩ := planCheckEnd_under_way hq hc
  refine ⟨fun check index h => by rw [hfail check index h]; rfl, fun h => ?_, fun m h => ?_⟩
  · obtain ⟨-, header, hh, -⟩ := (planCheck_passed_iff _ _ _ _).1 h
    refine ⟨(s.slot n).posted, _, rfl, rfl, rfl, rfl, posted_checkCode _, posted_recordBytes _, posted_recordEntries _,
      posted_onlyRecordPlaces hh, rfl, ?_⟩
    rw [hpass none h, passCheck_none]
    rfl
  · obtain ⟨-, header, hh, hother⟩ := (planCheck_passed_iff _ _ _ _).1 h
    obtain ⟨hmn, -⟩ := otherPosted_eq_some hother
    obtain ⟨t, ht⟩ : ∃ t, retireSlot m ((afterCheck s rest).setSlot n (s.slot n).posted) = t := ⟨_, rfl⟩
    obtain ⟨hn, hfreed, hretiring, hrest, hframe⟩ := retireSlot_after_post hmn ht
    refine ⟨t, ?_, ?_⟩
    · rw [hpass (some m) h, passCheck_some ht hn]
      rfl
    · rw [hn]
      exact ⟨rfl, rfl, rfl, rfl, posted_checkCode _, posted_recordBytes _, posted_recordEntries _,
        posted_onlyRecordPlaces hh, hfreed, hretiring, hrest, hframe⟩

end Sys2Proof.Machine.PlanSlots
end
